-- ==== Sys2Proof/Word.lean ====
section
/-!
DEFINITION. The two word types of FCODEC: a byte of a wire stream or of a byte array, and a 32-bit
value of the host bus (spec 10_state.md R20, 20_memory.md R60).
-/

namespace Sys2Proof

/-- One byte: a wire byte, an entry of IBUF or OBUF. -/
abbrev Byte := BitVec 8

/-- One 32-bit value of the host bus, an entry of MSG. -/
abbrev Word := BitVec 32

end Sys2Proof
end

