-- ==== Sys2Proof/Config.lean ====
section
/-!
DEFINITION. What an implementation fixes: the protocol constants (spec 00_scope.md R9), the build
parameters (R7), and the free values, which the spec leaves unspecified (93_implementation_defined.md).
-/

namespace Sys2Proof

/-- HDR, the header byte of a frame (R9). -/
def Config.hdr : Byte := 0xAA#8

/-- TERM, the terminator byte of a frame (R9). -/
def Config.term : Byte := 0x0A#8

/-- MAX_LEN, the largest value of the length byte (R9). -/
def Config.maxLen : Nat := 255

/-- MAX_PAYLOAD, the largest payload that encodes (R9, R122). -/
def Config.maxPayload : Nat := 254

/-- MIN_FRAME, the length of the smallest frame (R9, R152). -/
def Config.minFrame : Nat := 3

/-- LATENCY_DEFAULT, the reset value of LATENCY_MS (R9, R25). -/
def Config.latencyDefault : BitVec 16 := 50#16

/-- TIMEOUT_DEFAULT, the reset value of TIMEOUT_MS (R9, R26). -/
def Config.timeoutDefault : BitVec 16 := 10#16

/-- OBUF_BYTES, the capacity of the output buffer, fixed (R7). -/
def Config.obufBytes : Nat := 257

/-- The size of the register window in bytes: 512 KiB (20_memory.md R60, R77). -/
def Config.windowBytes : Nat := 0x80000

/-- The ID register's constant (10_state.md R21). -/
def Config.idWord : Word := 0x46430007#32

/-- FREE VALUE (U1, R41): what `IBUF[i]` holds when nothing has written it since reset number `epoch`
(`resetIbuf epoch i`). Log 3. -/
opaque Config.resetIbuf : Nat → Nat → Byte

/-- FREE VALUE (U2, R43): what `OBUF[i]` holds when nothing has written it since reset number `epoch`. Log 3. -/
opaque Config.resetObuf : Nat → Nat → Byte

/-- FREE VALUE (U3, R45): what `MSG[i]` holds when nothing has written it since reset number `epoch`. Log 3. -/
opaque Config.resetMsg : Nat → Nat → Word

/-- FREE VALUE (U4, U5, R237, R303): the value the `d`-th unspecified array read returns. Log 4. -/
opaque Config.unspecifiedRead : Nat → Word

/-- The build parameters (R7). OBUF_BYTES is fixed and MSG_SLOTS follows from IBUF_BYTES. -/
structure Params where
  /-- IBUF_BYTES, 257 to 65535. -/
  ibufBytes : Nat
  /-- RX_PRESENT: whether RECEIVE is built (R8). -/
  rxPresent : Bool
  /-- BASE: the address of the register window on the host bus, 512 KiB-aligned. -/
  base : Nat
  deriving DecidableEq, Repr

/-- MSG_SLOTS = floor(IBUF_BYTES / 3) (R7). -/
def Params.msgSlots (p : Params) : Nat := p.ibufBytes / 3

/-- The legal ranges of R7; values outside them are refused (U15). -/
def Params.legal (p : Params) : Bool :=
  decide (257 ≤ p.ibufBytes ∧ p.ibufBytes ≤ 65535 ∧ p.base % Config.windowBytes = 0)

/-- The defaults of R7. BASE is OPEN there; 0 is the model's choice (DESIGN CHOICE, log 1). -/
def Params.default : Params := { ibufBytes := 1024, rxPresent := true, base := 0 }

end Sys2Proof
end

