-- ==== Sys2Proof/Machine/Codec.lean ====
section
/-!
DEFINITION. The two pure functions of the source on byte sequences: `encode` (spec 40_emitter.md R120) and `decode_all`
(41_scanner.md R151), and the message descriptor (30_encoding.md R100). They have no state; the controller's phases apply them
or are stated equal to them.
-/

namespace Sys2Proof.Machine

/-- What `encode` returns (R120). -/
inductive Encoded where
  | frame (f : List Byte)
  | payloadTooLarge
  deriving DecidableEq, Repr

/-- `encode(P)` (R120). -/
def encodePayload (p : List Byte) : Encoded :=
  if p.length + 1 > Config.maxLen then .payloadTooLarge
  else if p = [Config.term] then .frame [Config.term]
  else .frame ([Config.hdr, BitVec.ofNat 8 (p.length + 1)] ++ p ++ [Config.term])

/-- `b[i]` (R11); every use below has `i` in range. -/
def byteAt (b : List Byte) (i : Nat) : Byte := b.getD i 0#8

/-- `b[lo .. hi)` (R11). -/
def slice (b : List Byte) (lo hi : Nat) : List Byte := (b.drop lo).take (hi - lo)

/-- The loop of `decode_all` from position `q` on: the candidates `(p, l)` that pass pass 1, in stream order
(R151 to R157). The first argument bounds the number of positions still to be examined. -/
def collectFrames (b : List Byte) : Nat → Nat → List (Nat × Nat)
  | 0, _ => []
  | fuel + 1, q =>
    if b.length < q + Config.minFrame then []
    else if byteAt b q ≠ Config.hdr then collectFrames b fuel (q + 1)
    else
      let l := (byteAt b (q + 1)).toNat
      if q + l + 1 < b.length ∧ byteAt b (q + l + 1) = Config.term then
        (q, l) :: collectFrames b fuel (q + l + 2)
      else collectFrames b fuel (q + 1)

/-- Pass 2, the length-consistency check (R156). -/
def lengthConsistent (b : List Byte) (c : Nat × Nat) : Bool :=
  (slice b c.1 (c.1 + c.2 + 2)).length == c.2 + 2

/-- The offset one past the terminator of the last collected frame, or 0 (R158). -/
def lastEnd (cands : List (Nat × Nat)) : Nat :=
  match cands.getLast? with
  | none => 0
  | some c => c.1 + c.2 + 2

/-- What `decode_all` returns (R151). -/
structure Decoded where
  /-- The payloads, in stream order. -/
  msgs : List (List Byte)
  /-- The number of bytes consumed. -/
  consumed : Nat
  /-- The (offset, length) pair of each payload. -/
  descs : List (Nat × Nat)
  deriving DecidableEq, Repr

/-- `decode_all(B)` (R151). Each position examined raises q by at least 1 (R164), so |B| positions are enough. -/
def decodeAll (b : List Byte) : Decoded :=
  let cands := collectFrames b b.length 0
  let kept := cands.filter (lengthConsistent b)
  { msgs := kept.map fun c => slice b (c.1 + 2) (c.1 + c.2 + 1)
    consumed := lastEnd cands
    descs := kept.map fun c => (c.1 + 2, c.2 - 1) }

/-- OFFSET of a descriptor, bits [15:0] (R100). -/
def descOffset (d : Word) : Nat := (d.extractLsb' 0 16).toNat

/-- PLEN of a descriptor, bits [23:16] (R100). -/
def descPlen (d : Word) : Nat := (d.extractLsb' 16 8).toNat

/-- F is a frame: header, length byte LEN ≥ 1, LEN - 1 payload bytes, terminator at offset LEN + 1, and nothing after it
(R90, R91, R92). -/
def isFrame (f : List Byte) : Bool :=
  let l := (byteAt f 1).toNat
  byteAt f 0 == Config.hdr && decide (1 ≤ l) && f.length == l + 2 && byteAt f (l + 1) == Config.term

/-- The payload of a frame (R90, R91). -/
def framePayload (f : List Byte) : List Byte := slice f 2 (f.length - 1)

/-- The 32-bit descriptor of a message: `zext_32(PLEN) << 16 | zext_32(OFFSET)` (R100). -/
def descriptor (off plen : Nat) : Word :=
  ((BitVec.ofNat 8 plen).setWidth 32 <<< 16) ||| (BitVec.ofNat 16 off).setWidth 32

end Sys2Proof.Machine
end

