-- ==== Sys2Proof/Syntax.lean ====
section
/-!
DEFINITION. The accesses a host can make of FCODEC: requests as they stand on the bus, and the one
inductive of instructions, one constructor per row of spec/opcode_table.json.
-/

namespace Sys2Proof

/-- One host access as the host issues it, before decoding (spec 20_memory.md R60, 30_encoding.md R97, R103).
A read or write names its width in bytes and its address on the host bus. -/
inductive Request where
  /-- The 32-bit CMD word of the host-program line `cmd OP`: the access `wr CMD, w` (R97, R103). -/
  | cmd (w : Word)
  /-- A bus read of `width` bytes at address `addr`. -/
  | read (width addr : Nat)
  /-- A bus write of `width` bytes at address `addr`, with datum `v`. -/
  | write (width addr : Nat) (v : Word)
  deriving DecidableEq, Repr

/-- The instructions: the rows of spec/opcode_table.json. A CMD row carries the ignored bits [31:4] of its
word (R97); a write its 32-bit datum; an array access the index its offset holds; the two rows for every
other offset carry the offset. -/
inductive Instr where
  /-- ENCODE, CMD.OPCODE = 1 (R121). -/
  | encode (ign : BitVec 28)
  /-- EMIT, CMD.OPCODE = 2 (R125). -/
  | emit (ign : BitVec 28)
  /-- DECODE, CMD.OPCODE = 3 (R150). -/
  | decode (ign : BitVec 28)
  /-- RECEIVE, CMD.OPCODE = 4 (R190). -/
  | receive (ign : BitVec 28)
  /-- Reserved opcode 0 (R98). -/
  | rsvd0 (ign : BitVec 28)
  /-- Reserved opcode 5 (R98). -/
  | rsvd5 (ign : BitVec 28)
  /-- Reserved opcode 6 (R98). -/
  | rsvd6 (ign : BitVec 28)
  /-- Reserved opcode 7 (R98). -/
  | rsvd7 (ign : BitVec 28)
  /-- Reserved opcodes 8 to F; `low` is OPCODE[2:0] (R98). -/
  | rsvd8F (low : BitVec 3) (ign : BitVec 28)
  /-- Read of ID (R21, R239). -/
  | rdId
  /-- Read of CAPS (R22, R239). -/
  | rdCaps
  /-- Read of IBUF_SIZE (R34, R239). -/
  | rdIbufSize
  /-- Write of `v` to CMD (R230). -/
  | wrCmd (v : Word)
  /-- Read of CMD (R35, R239). -/
  | rdCmd
  /-- Read of STATUS (R23, R239). -/
  | rdStatus
  /-- Write of `v` to STATUS (R232). -/
  | wrStatus (v : Word)
  /-- Read of LATENCY_MS (R25, R239). -/
  | rdLatencyMs
  /-- Write of `v` to LATENCY_MS (R233). -/
  | wrLatencyMs (v : Word)
  /-- Read of TIMEOUT_MS (R26, R239). -/
  | rdTimeoutMs
  /-- Write of `v` to TIMEOUT_MS (R234). -/
  | wrTimeoutMs (v : Word)
  /-- Read of IN_LEN (R27, R239). -/
  | rdInLen
  /-- Write of `v` to IN_LEN (R235). -/
  | wrInLen (v : Word)
  /-- Read of OUT_LEN (R28, R239). -/
  | rdOutLen
  /-- Read of MSG_COUNT (R29, R239). -/
  | rdMsgCount
  /-- Read of CONSUMED (R33, R239). -/
  | rdConsumed
  /-- Read in the OBUF window, i = off[11:2] (R63). -/
  | rdObuf (i : BitVec 10)
  /-- Read in the MSG window, i = off[16:2] (R64). -/
  | rdMsg (i : BitVec 15)
  /-- Read in the IBUF window, i = off[17:2] (R62). -/
  | rdIbuf (i : BitVec 16)
  /-- Write of `v` in the IBUF window, i = off[17:2] (R62, R236). -/
  | wrIbuf (i : BitVec 16) (v : Word)
  /-- Write at any offset no other write row matches (R238, R65, R66). -/
  | wrIgnored (off : BitVec 19) (v : Word)
  /-- Read at any offset no other read row matches (R65, R66). -/
  | rdReserved (off : BitVec 19)
  deriving DecidableEq, Repr

end Sys2Proof
end

