-- ==== Sys2Proof/Machine/State.lean ====
section
/-!
DEFINITION. The state of FCODEC and of what the spec puts beside it (spec 10_state.md R20 to R48, 60_exceptions.md
R285 to R288), the reasons a step can stop, and the state right after reset.
-/

namespace Sys2Proof.Machine

/-- Entries of a storage array as (index, entry) pairs, indices strictly rising. An index that is not listed has
not been written since reset (R41, R43, R45). A byte array is a list of `Host.Cell`. -/
abbrev Memory (α : Type) := List (Nat × α)

/-- The controller phase (R31). -/
inductive Phase where
  /-- No operation in progress; a CMD write is accepted. -/
  | idle
  /-- ENCODE or EMIT: the frame is being built (R121). -/
  | enc
  /-- EMIT: rx_flush is asserted (R127). -/
  | flush
  /-- EMIT: the frame is being transmitted (R128). -/
  | tx
  /-- DECODE or RECEIVE: the scan loop (R162). -/
  | scan
  /-- RECEIVE: waiting for the first byte (R193). -/
  | arm
  /-- RECEIVE: taking bytes until silence (R194). -/
  | drain
  deriving DecidableEq, Repr

/-- The operation the latched CMD.OPCODE selects (R74(a), R97). -/
inductive Op where
  | encode
  | emit
  | decode
  | receive
  deriving DecidableEq, Repr

/-- STATUS.RESULT (R24). The values 5 to 15 are never produced, so they are no constructors. -/
inductive Result where
  /-- 0: no operation has completed since reset. -/
  | none
  /-- 1 -/
  | ok
  /-- 2 -/
  | payloadTooLarge
  /-- 3 -/
  | noResponse
  /-- 4 -/
  | illegalOp
  deriving DecidableEq, Repr

/-- The outputs FCODEC drives on the transport port in one cycle (R285, R287, R288). -/
structure Pins where
  /-- rx_pop. -/
  rxPop : Bool
  /-- rx_flush. -/
  rxFlush : Bool
  /-- tx_valid with tx_data: `some b` is tx_valid = 1 and tx_data = b. -/
  tx : Option Byte
  deriving DecidableEq, Repr

/-- rx_pop, rx_flush and tx_valid all 0. -/
def Pins.quiet : Pins := { rxPop := false, rxFlush := false, tx := none }

/-- The inputs of one clock cycle (log 2). -/
structure CycleIn where
  /-- rst (R300). -/
  rst : Bool
  /-- tick_ms (R280). -/
  tick : Bool
  /-- tx_ready (R288). -/
  txReady : Bool
  /-- How many reference steps an ENC or SCAN phase makes in this cycle: 0 is a stall, 1 the reference
  implementation's rate (R162, R320; log 5). -/
  work : Nat
  /-- The bytes that become available at the transport, first seen by rx_valid in this cycle, oldest first (R285). -/
  arrive : List Byte
  /-- The host's access in this cycle, at most one (R71). -/
  host : Option Request
  deriving DecidableEq, Repr

/-- A cycle in which no agent but the controller acts, at the reference rate. -/
def CycleIn.quiet : CycleIn :=
  { rst := false, tick := false, txReady := false, work := 1, arrive := [], host := none }

/-- FCODEC's state, the transport's, and the model's own fields (INVENTORY.md, State). -/
structure State where
  /-- The build parameters (R7). No step writes them. -/
  cfg : Params
  /-- STATUS.RESULT (R23, R24). -/
  result : Result
  /-- STATUS.WINDOW_FULL (R23). -/
  windowFull : Bool
  /-- STATUS.OVERRUN (R23). -/
  overrun : Bool
  /-- LATENCY_MS[15:0] (R25). -/
  latencyMs : BitVec 16
  /-- TIMEOUT_MS[15:0] (R26). -/
  timeoutMs : BitVec 16
  /-- IN_LEN[15:0] (R27). -/
  inLen : BitVec 16
  /-- OUT_LEN[8:0] (R28). -/
  outLen : BitVec 9
  /-- MSG_COUNT[15:0] (R29). -/
  msgCount : BitVec 16
  /-- CONSUMED[15:0] (R33). -/
  consumed : BitVec 16
  /-- PHASE (R31). STATUS.BUSY is `phase ≠ idle` (R32) and has no storage of its own. -/
  phase : Phase
  /-- The operation in progress: CMD.OPCODE as latched by the accepted write (R74). -/
  op : Op
  /-- The scan cursor q (R36). -/
  q : BitVec 17
  /-- The number of frames accepted so far (R36). -/
  n : BitVec 16
  /-- The end offset of the last accepted frame (R36). -/
  last : BitVec 17
  /-- The length of the buffer being scanned (R36). -/
  len : BitVec 16
  /-- Ticks since the Arm phase began, saturating (R37). -/
  elapsed : BitVec 17
  /-- The inactivity clock, saturating (R37). -/
  idle : BitVec 17
  /-- Bytes accumulated in this window (R37). -/
  wlen : BitVec 16
  /-- The window-full outcome (R37). -/
  full : Bool
  /-- The length of the frame in OBUF (R38). -/
  flen : BitVec 9
  /-- The index of the next OBUF byte to transmit (R38). -/
  k : BitVec 9
  /-- IBUF (R40, R41). -/
  ibuf : Memory Byte
  /-- OBUF (R42, R43). -/
  obuf : Memory Byte
  /-- MSG (R44, R45). -/
  msg : Memory Word
  /-- The transport's input buffer, oldest byte first (R39(a), R285). -/
  rxFifo : List Byte
  /-- The transmit stream: every byte transferred so far, first byte first (R77(b), R288). -/
  wire : List Byte
  /-- MODEL: the outputs driven in the last cycle (log 9). -/
  pins : Pins
  /-- MODEL: the value the last cycle's host read returned, `none` when it held no read (log 9). -/
  rdata : Option Word
  /-- MODEL: the inputs of the coming cycles, the next cycle first (log 2). -/
  sched : List CycleIn
  /-- MODEL: reset cycles so far; argument of the free contents of unwritten array entries (log 3). -/
  epoch : Nat
  /-- MODEL: unspecified reads so far; argument of their free values (log 4). -/
  draw : Nat
  deriving DecidableEq, Repr

/-- Why the machine stops with a fault. FCODEC itself raises none (R270); the one fault is the bus's. -/
inductive Fault where
  /-- Raised by the fetch of a host request whose address is not in FCODEC's window (R60): such an address does
  not exist in this machine. Safe: the model stops where the spec describes nothing. -/
  | outsideWindow (addr : Nat)
  deriving DecidableEq, Repr

/-- Why the machine refuses to go on. -/
inductive Refusal where
  /-- Raised by an arm of `exec` for an instruction that has no meaning; no arm raises it. Safe. -/
  | notModelled (mnemonic : String)
  /-- Raised by the fetch of a host access that is not 32 bits wide (R60, U13: refuse). Safe. -/
  | badWidth (width : Nat)
  /-- Raised by the step when the build parameters are outside their legal ranges (R7, U15: refuse). Safe. -/
  | illegalParameters
  deriving DecidableEq, Repr

/-- The state right after reset (R47, R300), at the default parameters of R7. The arrays list nothing: their
contents are unspecified (R41, R43, R45). -/
def State.reset : State :=
  { cfg := Params.default
    result := .none
    windowFull := false
    overrun := false
    latencyMs := Config.latencyDefault
    timeoutMs := Config.timeoutDefault
    inLen := 0#16
    outLen := 0#9
    msgCount := 0#16
    consumed := 0#16
    phase := .idle
    op := .encode
    q := 0#17
    n := 0#16
    last := 0#17
    len := 0#16
    elapsed := 0#17
    idle := 0#17
    wlen := 0#16
    full := false
    flen := 0#9
    k := 0#9
    ibuf := []
    obuf := []
    msg := []
    rxFifo := []
    wire := []
    pins := Pins.quiet
    rdata := none
    sched := []
    epoch := 0
    draw := 0 }

end Sys2Proof.Machine
end

