-- ==== Sys2Proof/Machine/Ops.lean ====
section
/-!
DEFINITION. Shared operations: the storage arrays and their free contents, the bus answer, and the gate that drops a
host write while an operation runs. FCODEC raises no exception (spec 60_exceptions.md R270), so there is no exception
entry and no return here; `complete`, which stands in their place (R274), is in Flags.lean.
-/

namespace Sys2Proof.Machine

/-- The indices of an array's list are strictly rising: the one canonical form of an array. -/
def Memory.wf {α : Type} : Memory α → Bool
  | [] => true
  | [_] => true
  | a :: b :: rest => decide (a.1 < b.1) && Memory.wf (b :: rest)

/-- The entry at an index, `none` where nothing has been written since reset. -/
def Memory.read {α : Type} : Memory α → Nat → Option α
  | [], _ => none
  | a :: rest, i => if a.1 = i then some a.2 else Memory.read rest i

/-- Write one entry, keeping the canonical form. -/
def Memory.write {α : Type} : Memory α → Nat → α → Memory α
  | [], i, v => [(i, v)]
  | a :: rest, i, v =>
    if i < a.1 then (i, v) :: a :: rest
    else if a.1 = i then (i, v) :: rest
    else a :: Memory.write rest i v

/-- Write consecutive entries from an index upward. -/
def Memory.writeList {α : Type} : Memory α → Nat → List α → Memory α
  | m, _, [] => m
  | m, i, v :: vs => Memory.writeList (Memory.write m i v) (i + 1) vs

/-- IBUF[i]; an entry nothing has written since reset holds a free value (R41, U1). -/
def State.ibufAt (s : State) (i : Nat) : Byte := (s.ibuf.read i).getD (Config.resetIbuf s.epoch i)

/-- OBUF[i]; an entry nothing has written since reset holds a free value (R43, U2). -/
def State.obufAt (s : State) (i : Nat) : Byte := (s.obuf.read i).getD (Config.resetObuf s.epoch i)

/-- MSG[i]; an entry nothing has written since reset holds a free value (R45, U3). -/
def State.msgAt (s : State) (i : Nat) : Word := (s.msg.read i).getD (Config.resetMsg s.epoch i)

/-- IBUF[0 .. n) (R11). -/
def State.ibufPrefix (s : State) (n : Nat) : List Byte := (List.range n).map s.ibufAt

/-- OBUF[0 .. n) (R11). -/
def State.obufPrefix (s : State) (n : Nat) : List Byte := (List.range n).map s.obufAt

/-- STATUS.BUSY: 1 exactly when PHASE is not IDLE (R32). -/
def State.busy (s : State) : Bool := s.phase != .idle

/-- The host read of this cycle returns `v` (R70). -/
def State.respond (s : State) (v : Word) : State := { s with rdata := some v }

/-- The host read of this cycle returns an unspecified value: the next free one (R237, R303; log 4). -/
def State.respondFree (s : State) : State :=
  { s with rdata := some (Config.unspecifiedRead s.draw), draw := s.draw + 1 }

/-- A host write that is accepted while IDLE and dropped, with OVERRUN set, while an operation runs (R230, R231). -/
def State.whenIdle (s : State) (effect : State → State) : State :=
  if s.busy then { s with overrun := true } else effect s

/-- Saturating count in 17 bits (R37, R281). -/
def sat17 (c : BitVec 17) : BitVec 17 := if c = 0x1FFFF#17 then c else c + 1#17

end Sys2Proof.Machine
end

