-- ==== Sys2Proof/Machine/Flags.lean ====
section
/-!
DEFINITION. STATUS: its result codes, the register's layout, completion, and the OVERRUN bit (spec 10_state.md R23,
R24, R46; 00_scope.md R12; 60_exceptions.md R271, R274).
-/

namespace Sys2Proof.Machine

/-- The value of STATUS.RESULT (R24). -/
def Result.code : Result → BitVec 4
  | .none => 0x0#4
  | .ok => 0x1#4
  | .payloadTooLarge => 0x2#4
  | .noResponse => 0x3#4
  | .illegalOp => 0x4#4

/-- STATUS: bit 0 BUSY, bits [7:4] RESULT, bit 8 WINDOW_FULL, bit 9 OVERRUN, every other bit 0 (R23). -/
def State.statusWord (s : State) : Word :=
  0#22 ++ BitVec.ofBool s.overrun ++ BitVec.ofBool s.windowFull ++ s.result.code ++ 0#3 ++ BitVec.ofBool s.busy

/-- `complete(code)` with the operation's window-full outcome: RESULT, WINDOW_FULL and BUSY <- 0 in one cycle
(R12, R23, R274). -/
def State.complete (s : State) (code : Result) (windowFull : Bool) : State :=
  { s with result := code, windowFull := windowFull, phase := .idle }

/-- W1C of STATUS bit 9; every other bit of the datum is ignored (R232). -/
def State.clearOverrun (s : State) (v : Word) : State :=
  { s with overrun := s.overrun && !v.getLsbD 9 }

end Sys2Proof.Machine
end

