-- ==== Sys2Proof/Machine/Emitter.lean ====
section
/-!
DEFINITION. The emitter's phases ENC, FLUSH and TX (spec 40_emitter.md R121, R123, R125 to R129).
-/

namespace Sys2Proof.Machine

/-- ENC: encode the payload IBUF[0 .. IN_LEN) into OBUF. ENCODE completes here; EMIT goes on to FLUSH, or completes
with PAYLOAD_TOO_LARGE without any transport effect (R121, R125, R126). -/
def encStep (s : State) : State :=
  match encodePayload (s.ibufPrefix s.inLen.toNat) with
  | .payloadTooLarge => { s with outLen := 0#9 }.complete .payloadTooLarge false
  | .frame f =>
    let s' := { s with obuf := s.obuf.writeList 0 f, flen := BitVec.ofNat 9 f.length }
    if s.op = .emit then { s' with phase := .flush }
    else { s' with outLen := BitVec.ofNat 9 f.length }.complete .ok false

/-- FLUSH, one cycle: rx_flush is asserted and the transport discards every byte it holds (R127, R287). -/
def flushStep (s : State) : State :=
  { s with rxFifo := [], k := 0#9, phase := .tx, pins := { Pins.quiet with rxFlush := true } }

/-- TX, per cycle: OBUF[k] is offered; in a cycle with tx_ready = 1 it is transferred, and the transfer of the last
byte completes EMIT (R125, R128, R129, R288). -/
def txStep (txReady : Bool) (s : State) : State :=
  let b := s.obufAt s.k.toNat
  let s' := { s with pins := { Pins.quiet with tx := some b } }
  if txReady then
    let s'' := { s' with wire := s.wire ++ [b] }
    if s.k.toNat + 1 = s.flen.toNat then { s'' with outLen := s.flen }.complete .ok false
    else { s'' with k := s.k + 1#9 }
  else s'

end Sys2Proof.Machine
end

