-- ==== Sys2Proof/Machine/Scanner.lean ====
section
/-!
DEFINITION. The SCAN phase that DECODE and RECEIVE share (spec 41_scanner.md R161 to R164; 42_receiver.md R198, R199).
-/

namespace Sys2Proof.Machine

/-- Entry of the SCAN phase over the first `len` bytes of IBUF (R161). -/
def State.enterScan (s : State) (len : BitVec 16) : State :=
  { s with phase := .scan, len := len, q := 0#17, n := 0#16, last := 0#17 }

/-- DECODE's completion: MSG_COUNT, CONSUMED, RESULT <- OK (R150, R163). CONSUMED holds the low 16 bits of `last`,
which is at most IBUF_BYTES (log 16). -/
def finishDecode (s : State) : State :=
  { s with msgCount := s.n, consumed := s.last.setWidth 16 }.complete .ok false

/-- RECEIVE's completion (R199). -/
def finishReceive (s : State) : State :=
  { s with inLen := s.wlen, msgCount := s.n, consumed := s.last.setWidth 16 }.complete
    (if s.n = 0#16 then .noResponse else .ok) s.full

/-- `finish(n, last)` of the scan loop, for the operation in progress (R162). -/
def finishScan (s : State) : State := if s.op = .receive then finishReceive s else finishDecode s

/-- One step of the scan loop (R162). Pass 2 holds for every candidate that is collected (R156). -/
def scanStep (s : State) : State :=
  if s.len.toNat < s.q.toNat + Config.minFrame then finishScan s
  else if s.ibufAt s.q.toNat ≠ Config.hdr then { s with q := s.q + 1#17 }
  else
    let l := (s.ibufAt (s.q.toNat + 1)).toNat
    let e := s.q.toNat + l + 2
    if s.q.toNat + l + 1 < s.len.toNat ∧ s.ibufAt (s.q.toNat + l + 1) = Config.term then
      { s with
        msg := s.msg.write s.n.toNat (descriptor (s.q.toNat + 2) (l - 1))
        n := s.n + 1#16
        last := BitVec.ofNat 17 e
        q := BitVec.ofNat 17 e }
    else { s with q := s.q + 1#17 }

/-- Up to `work` steps of the scan loop in one cycle, stopping when the scan has finished (R162, R320; log 5). -/
def scanSteps : Nat → State → State
  | 0, s => s
  | work + 1, s => if s.phase = .scan then scanSteps work (scanStep s) else s

end Sys2Proof.Machine
end

