-- ==== Sys2Proof/Machine/Receiver.lean ====
section
/-!
DEFINITION. The receiver's phases ARM and DRAIN (spec 42_receiver.md R192 to R198).
-/

namespace Sys2Proof.Machine

/-- `IBUF[i] <- RxPop()` of the byte `b`, leaving `rest` in the transport (R195, R285). -/
def State.popInto (s : State) (i : Nat) (b : Byte) (rest : List Byte) : State :=
  { s with ibuf := s.ibuf.write i b, rxFifo := rest, pins := { Pins.quiet with rxPop := true } }

/-- ARM, per cycle: poll first, then the deadline, then count a tick (R193, R196). -/
def armStep (tick : Bool) (s : State) : State :=
  match s.rxFifo with
  | b :: rest => { s.popInto 0 b rest with wlen := 1#16, idle := 0#17, phase := .drain }
  | [] =>
    if s.latencyMs.toNat ≤ s.elapsed.toNat then s.enterScan 0#16
    else if tick then { s with elapsed := sat17 s.elapsed }
    else s

/-- DRAIN, per cycle: poll first, then the silence bound, then count a tick; a byte found with the window full ends
the window and stays in the transport (R194, R197, R198). -/
def drainStep (tick : Bool) (s : State) : State :=
  match s.rxFifo with
  | b :: rest =>
    if s.wlen.toNat < s.cfg.ibufBytes then
      { s.popInto s.wlen.toNat b rest with wlen := s.wlen + 1#16, idle := 0#17 }
    else { s with full := true }.enterScan s.wlen
  | [] =>
    if s.timeoutMs.toNat < s.idle.toNat then s.enterScan s.wlen
    else if tick then { s with idle := sat17 s.idle }
    else s

end Sys2Proof.Machine
end

