-- ==== Sys2Proof/Machine/Controller.lean ====
section
/-!
DEFINITION. The controller's step in one cycle: one step of the phase the cycle started in (spec 10_state.md R31).
-/

namespace Sys2Proof.Machine

/-- One controller step with the cycle's inputs (R31). ENC and SCAN make `work` reference steps (log 5). -/
def controllerStep (c : CycleIn) (s : State) : State :=
  match s.phase with
  | .idle => s
  | .enc => if c.work = 0 then s else encStep s
  | .flush => flushStep s
  | .tx => txStep c.txReady s
  | .scan => scanSteps c.work s
  | .arm => armStep c.tick s
  | .drain => drainStep c.tick s

end Sys2Proof.Machine
end

