-- ==== Sys2Proof/Machine/Operands.lean ====
section
/-!
DEFINITION. Operand forms of the host accesses: the 32-bit value each register reads as (spec 10_state.md R21 to R35),
the fields a write takes from its datum (R25 to R27, R62), and which array reads are unspecified (43_host_access.md R237).
-/

namespace Sys2Proof.Machine

/-- CAPS: bit 0 RX_PRESENT (R22). -/
def State.capsWord (s : State) : Word := (BitVec.ofBool s.cfg.rxPresent).setWidth 32

/-- IBUF_SIZE: bits [15:0] IBUF_BYTES (R34). -/
def State.ibufSizeWord (s : State) : Word := (BitVec.ofNat 16 s.cfg.ibufBytes).setWidth 32

/-- LATENCY_MS (R25). -/
def State.latencyWord (s : State) : Word := s.latencyMs.setWidth 32

/-- TIMEOUT_MS (R26). -/
def State.timeoutWord (s : State) : Word := s.timeoutMs.setWidth 32

/-- IN_LEN (R27). -/
def State.inLenWord (s : State) : Word := s.inLen.setWidth 32

/-- OUT_LEN (R28). -/
def State.outLenWord (s : State) : Word := s.outLen.setWidth 32

/-- MSG_COUNT (R29). -/
def State.msgCountWord (s : State) : Word := s.msgCount.setWidth 32

/-- CONSUMED (R33). -/
def State.consumedWord (s : State) : Word := s.consumed.setWidth 32

/-- `zext_32` of a byte (R62, R63). -/
def byteWord (b : Byte) : Word := b.setWidth 32

/-- Bits [15:0] of a write's datum (R233, R234). -/
def halfOf (v : Word) : BitVec 16 := v.extractLsb' 0 16

/-- Bits [7:0] of a write's datum (R62). -/
def byteOf (v : Word) : Byte := v.extractLsb' 0 8

/-- The value IN_LEN stores: `min(v[15:0], IBUF_BYTES)` (R27, R235). -/
def State.inLenOf (s : State) (v : Word) : BitVec 16 := BitVec.ofNat 16 (min (halfOf v).toNat s.cfg.ibufBytes)

/-- The running operation may write OBUF, so a host read of it is unspecified (R237). -/
def State.obufUnspecified (s : State) : Bool := s.busy && (s.op == .encode || s.op == .emit)

/-- The running operation may write MSG (R237). -/
def State.msgUnspecified (s : State) : Bool := s.busy && (s.op == .decode || s.op == .receive)

/-- The running operation may write IBUF (R237). -/
def State.ibufUnspecified (s : State) : Bool := s.busy && s.op == .receive

end Sys2Proof.Machine
end

