-- ==== Sys2Proof/Machine/ArrayAccess.lean ====
section
/-!
DEFINITION. The host's accesses to OBUF, MSG and IBUF (spec 20_memory.md R62 to R65; 43_host_access.md R231, R236, R237).
An index past its array reads 0 and ignores writes, whatever the phase (R65).
-/

namespace Sys2Proof.Machine

/-- OBUF[i] (R63); unspecified while ENCODE or EMIT runs (R237). -/
def execRdObuf (i : BitVec 10) (s : State) : Host.Outcome State Fault Refusal :=
  if i.toNat < Config.obufBytes then
    if s.obufUnspecified then .next s.respondFree else .next (s.respond (byteWord (s.obufAt i.toNat)))
  else .next (s.respond 0#32)

/-- MSG[i] (R64); unspecified while DECODE or RECEIVE runs (R237). -/
def execRdMsg (i : BitVec 15) (s : State) : Host.Outcome State Fault Refusal :=
  if i.toNat < s.cfg.msgSlots then
    if s.msgUnspecified then .next s.respondFree else .next (s.respond (s.msgAt i.toNat))
  else .next (s.respond 0#32)

/-- IBUF[i] (R62); unspecified while RECEIVE runs (R237). -/
def execRdIbuf (i : BitVec 16) (s : State) : Host.Outcome State Fault Refusal :=
  if i.toNat < s.cfg.ibufBytes then
    if s.ibufUnspecified then .next s.respondFree else .next (s.respond (byteWord (s.ibufAt i.toNat)))
  else .next (s.respond 0#32)

/-- `IBUF[i] <- v[7:0]` while IDLE, dropped with OVERRUN while busy (R62, R231, R236). -/
def execWrIbuf (i : BitVec 16) (v : Word) (s : State) : Host.Outcome State Fault Refusal :=
  if i.toNat < s.cfg.ibufBytes then
    .next (s.whenIdle fun t => { t with ibuf := t.ibuf.write i.toNat (byteOf v) })
  else .next s

end Sys2Proof.Machine
end

