-- ==== Sys2Proof/WellFormed.lean ====
section
/-!
DEFINITION. Which instruction terms stand for an access: the two rows "any other offset" hold only offsets
that no other row of their direction matches (spec/opcode_table.json, WR_IGNORED and RD_RESERVED).
-/

namespace Sys2Proof

/-- The offset lies in the IBUF window and is a multiple of 4 (20_memory.md R61, R62). -/
def offInIbuf (off : BitVec 19) : Bool :=
  off.extractLsb' 0 2 == 0#2 && off.extractLsb' 18 1 == 1#1

/-- A write row other than WR_IGNORED matches the offset (R61). -/
def offHasWriteRow (off : BitVec 19) : Bool :=
  [0x00010#19, 0x00014#19, 0x00018#19, 0x0001C#19, 0x00020#19].contains off || offInIbuf off

/-- A read row other than RD_RESERVED matches the offset (R61). -/
def offHasReadRow (off : BitVec 19) : Bool :=
  [0x00000#19, 0x00004#19, 0x00008#19, 0x00010#19, 0x00014#19, 0x00018#19, 0x0001C#19, 0x00020#19,
    0x00024#19, 0x00028#19, 0x0002C#19].contains off ||
  (off.extractLsb' 0 2 == 0#2 &&
    (off.extractLsb' 12 7 == 1#7 || off.extractLsb' 17 2 == 1#2 || off.extractLsb' 18 1 == 1#1))

/-- The instruction is one an access decodes to. -/
def Instr.wellFormed : Instr → Bool
  | .encode _ => true
  | .emit _ => true
  | .decode _ => true
  | .receive _ => true
  | .rsvd0 _ => true
  | .rsvd5 _ => true
  | .rsvd6 _ => true
  | .rsvd7 _ => true
  | .rsvd8F _ _ => true
  | .rdId => true
  | .rdCaps => true
  | .rdIbufSize => true
  | .wrCmd _ => true
  | .rdCmd => true
  | .rdStatus => true
  | .wrStatus _ => true
  | .rdLatencyMs => true
  | .wrLatencyMs _ => true
  | .rdTimeoutMs => true
  | .wrTimeoutMs _ => true
  | .rdInLen => true
  | .wrInLen _ => true
  | .rdOutLen => true
  | .rdMsgCount => true
  | .rdConsumed => true
  | .rdObuf _ => true
  | .rdMsg _ => true
  | .rdIbuf _ => true
  | .wrIbuf _ _ => true
  | .wrIgnored off _ => !offHasWriteRow off
  | .rdReserved off => !offHasReadRow off

end Sys2Proof
end

