-- ==== Sys2Proof/Decode.lean ====
section
/-!
DEFINITION. Decoding of host requests and of CMD words, total, with rejections by name; after it the encoder,
written from the same tables (spec 20_memory.md R60, R61; 30_encoding.md R97, R98; opcode_table.json), and the
opcode table's own view of a word.
-/

namespace Sys2Proof

/-- Why a request is no access of FCODEC. -/
inductive Reject where
  /-- The access is not 32 bits wide (R60, U13). -/
  | badWidth (width : Nat)
  /-- The address is not in the 512 KiB register window at BASE (R60). -/
  | outsideWindow (addr : Nat)
  deriving DecidableEq, Repr

/-- CMD.OPCODE, bits [3:0] of the word (R35, R97). -/
def opcodeOf (w : Word) : BitVec 4 := w.extractLsb' 0 4

/-- The CMD word's row: bits [3:0] select it, bits [31:4] are ignored (R97, R98). -/
def decodeCmd (w : Word) : Instr :=
  let ign := w.extractLsb' 4 28
  if opcodeOf w = 0x0#4 then .rsvd0 ign
  else if opcodeOf w = 0x1#4 then .encode ign
  else if opcodeOf w = 0x2#4 then .emit ign
  else if opcodeOf w = 0x3#4 then .decode ign
  else if opcodeOf w = 0x4#4 then .receive ign
  else if opcodeOf w = 0x5#4 then .rsvd5 ign
  else if opcodeOf w = 0x6#4 then .rsvd6 ign
  else if opcodeOf w = 0x7#4 then .rsvd7 ign
  else .rsvd8F (w.extractLsb' 0 3) ign

/-- The row of a 32-bit read at an offset (R61). -/
def decodeRead (off : BitVec 19) : Instr :=
  if off = 0x00000#19 then .rdId
  else if off = 0x00004#19 then .rdCaps
  else if off = 0x00008#19 then .rdIbufSize
  else if off = 0x00010#19 then .rdCmd
  else if off = 0x00014#19 then .rdStatus
  else if off = 0x00018#19 then .rdLatencyMs
  else if off = 0x0001C#19 then .rdTimeoutMs
  else if off = 0x00020#19 then .rdInLen
  else if off = 0x00024#19 then .rdOutLen
  else if off = 0x00028#19 then .rdMsgCount
  else if off = 0x0002C#19 then .rdConsumed
  else if off.extractLsb' 0 2 = 0#2 ∧ off.extractLsb' 12 7 = 1#7 then .rdObuf (off.extractLsb' 2 10)
  else if off.extractLsb' 0 2 = 0#2 ∧ off.extractLsb' 17 2 = 1#2 then .rdMsg (off.extractLsb' 2 15)
  else if off.extractLsb' 0 2 = 0#2 ∧ off.extractLsb' 18 1 = 1#1 then .rdIbuf (off.extractLsb' 2 16)
  else .rdReserved off

/-- The row of a 32-bit write of `v` at an offset (R61). -/
def decodeWrite (off : BitVec 19) (v : Word) : Instr :=
  if off = 0x00010#19 then .wrCmd v
  else if off = 0x00014#19 then .wrStatus v
  else if off = 0x00018#19 then .wrLatencyMs v
  else if off = 0x0001C#19 then .wrTimeoutMs v
  else if off = 0x00020#19 then .wrInLen v
  else if off.extractLsb' 0 2 = 0#2 ∧ off.extractLsb' 18 1 = 1#1 then .wrIbuf (off.extractLsb' 2 16) v
  else .wrIgnored off v

/-- The byte offset from BASE of a 32-bit access, or why it is none of FCODEC's (R60). -/
def windowOffset (base width addr : Nat) : Except Reject (BitVec 19) :=
  if width ≠ 4 then .error (.badWidth width)
  else if base ≤ addr ∧ addr < base + Config.windowBytes then .ok (BitVec.ofNat 19 (addr - base))
  else .error (.outsideWindow addr)

/-- The decoder: the instruction a host request is, for a window at `base`. -/
def decode (base : Nat) : Request → Except Reject Instr
  | .cmd w => .ok (decodeCmd w)
  | .read width addr =>
    match windowOffset base width addr with
    | .ok off => .ok (decodeRead off)
    | .error e => .error e
  | .write width addr v =>
    match windowOffset base width addr with
    | .ok off => .ok (decodeWrite off v)
    | .error e => .error e

/-- The CMD word with the given opcode and ignored bits (R97). -/
def cmdWord (ign : BitVec 28) (opcode : BitVec 4) : Word := ign ++ opcode

/-- The encoder: the request that is the given instruction, for a window at `base` (R61, R97). -/
def encode (base : Nat) : Instr → Request
  | .encode ign => .cmd (cmdWord ign 0x1#4)
  | .emit ign => .cmd (cmdWord ign 0x2#4)
  | .decode ign => .cmd (cmdWord ign 0x3#4)
  | .receive ign => .cmd (cmdWord ign 0x4#4)
  | .rsvd0 ign => .cmd (cmdWord ign 0x0#4)
  | .rsvd5 ign => .cmd (cmdWord ign 0x5#4)
  | .rsvd6 ign => .cmd (cmdWord ign 0x6#4)
  | .rsvd7 ign => .cmd (cmdWord ign 0x7#4)
  | .rsvd8F low ign => .cmd (cmdWord ign (1#1 ++ low))
  | .rdId => .read 4 (base + 0x00000)
  | .rdCaps => .read 4 (base + 0x00004)
  | .rdIbufSize => .read 4 (base + 0x00008)
  | .wrCmd v => .write 4 (base + 0x00010) v
  | .rdCmd => .read 4 (base + 0x00010)
  | .rdStatus => .read 4 (base + 0x00014)
  | .wrStatus v => .write 4 (base + 0x00014) v
  | .rdLatencyMs => .read 4 (base + 0x00018)
  | .wrLatencyMs v => .write 4 (base + 0x00018) v
  | .rdTimeoutMs => .read 4 (base + 0x0001C)
  | .wrTimeoutMs v => .write 4 (base + 0x0001C) v
  | .rdInLen => .read 4 (base + 0x00020)
  | .wrInLen v => .write 4 (base + 0x00020) v
  | .rdOutLen => .read 4 (base + 0x00024)
  | .rdMsgCount => .read 4 (base + 0x00028)
  | .rdConsumed => .read 4 (base + 0x0002C)
  | .rdObuf i => .read 4 (base + (0x01000 + 4 * i.toNat))
  | .rdMsg i => .read 4 (base + (0x20000 + 4 * i.toNat))
  | .rdIbuf i => .read 4 (base + (0x40000 + 4 * i.toNat))
  | .wrIbuf i v => .write 4 (base + (0x40000 + 4 * i.toNat)) v
  | .wrIgnored off v => .write 4 (base + off.toNat) v
  | .rdReserved off => .read 4 (base + off.toNat)

/-- The request that a word of the opcode table is (log 11). A row of one byte is a CMD word (format "cmd": the
table fixes bits of [3:0] only, and every bit above the table's is 0). A wider row is a bus access (format
"mmio"): bits [18:0] are the offset. The table gives the direction no bit; the model reads bit 31 as "write",
with the datum above it, so a table row's own word, whose bits above the offset are 0, is the read. -/
def tableRequest (base nbits w : Nat) : Request :=
  let u := w % 2 ^ nbits
  if nbits ≤ 16 then .cmd (BitVec.ofNat 32 u)
  else if u.testBit 31 then .write 4 (base + u % Config.windowBytes) (BitVec.ofNat 32 (u / 2 ^ 32))
  else .read 4 (base + u % Config.windowBytes)

/-- The instruction the decoder reads from a word of the opcode table (offsets count from BASE, so BASE is 0 here). -/
def decodeTableWord (nbits w : Nat) : Option Instr :=
  match decode 0 (tableRequest 0 nbits w) with
  | .ok i => some i
  | .error _ => none

end Sys2Proof
end

