-- ==== Sys2Proof/Machine/Commands.lean ====
section
/-!
DEFINITION. The rows of the CMD word: the entry action of each operation and the reserved opcodes (spec 30_encoding.md R97,
R98; 43_host_access.md R230, R231; 60_exceptions.md R272). What a started operation does in the cycles after is Controller.lean.
-/

namespace Sys2Proof.Machine

/-- ENCODE's first phase (R121, R230). -/
def State.startEncode (s : State) : State := { s with phase := .enc, op := .encode }

/-- EMIT's first phase (R125, R230). -/
def State.startEmit (s : State) : State := { s with phase := .enc, op := .emit }

/-- DECODE's first phase: the SCAN entry over IBUF[0 .. IN_LEN) (R150, R161, R230). -/
def State.startDecode (s : State) : State := { s with op := .decode }.enterScan s.inLen

/-- A reserved opcode completes in the write's own cycle as ILLEGAL_OP (R230, R272). PHASE is IDLE here and stays so. -/
def State.completeIllegal (s : State) : State := s.complete .illegalOp false

/-- RECEIVE's first phase with its entry actions (R192, R230); reserved when RX_PRESENT = 0 (R8, R98). -/
def State.startReceive (s : State) : State :=
  if s.cfg.rxPresent then
    { s with phase := .arm, op := .receive, elapsed := 0#17, idle := 0#17, wlen := 0#16, full := false }
  else s.completeIllegal

/-- ENCODE (R121). -/
def execEncode (_ign : BitVec 28) (s : State) : Host.Outcome State Fault Refusal :=
  .next (s.whenIdle State.startEncode)

/-- EMIT (R125). -/
def execEmit (_ign : BitVec 28) (s : State) : Host.Outcome State Fault Refusal :=
  .next (s.whenIdle State.startEmit)

/-- DECODE (R150). -/
def execDecode (_ign : BitVec 28) (s : State) : Host.Outcome State Fault Refusal :=
  .next (s.whenIdle State.startDecode)

/-- RECEIVE (R190). -/
def execReceive (_ign : BitVec 28) (s : State) : Host.Outcome State Fault Refusal :=
  .next (s.whenIdle State.startReceive)

/-- Reserved opcode 0 (R98, R272). -/
def execRsvd0 (_ign : BitVec 28) (s : State) : Host.Outcome State Fault Refusal :=
  .next (s.whenIdle State.completeIllegal)

/-- Reserved opcode 5 (R98, R272). -/
def execRsvd5 (_ign : BitVec 28) (s : State) : Host.Outcome State Fault Refusal :=
  .next (s.whenIdle State.completeIllegal)

/-- Reserved opcode 6 (R98, R272). -/
def execRsvd6 (_ign : BitVec 28) (s : State) : Host.Outcome State Fault Refusal :=
  .next (s.whenIdle State.completeIllegal)

/-- Reserved opcode 7 (R98, R272). -/
def execRsvd7 (_ign : BitVec 28) (s : State) : Host.Outcome State Fault Refusal :=
  .next (s.whenIdle State.completeIllegal)

/-- Reserved opcodes 8 to F (R98, R272). -/
def execRsvd8F (_low : BitVec 3) (_ign : BitVec 28) (s : State) : Host.Outcome State Fault Refusal :=
  .next (s.whenIdle State.completeIllegal)

/-- The effect of an accepted CMD write with the given opcode (R97, R98, R230). -/
def State.startOpcode (opcode : BitVec 4) (s : State) : State :=
  if opcode = 0x1#4 then s.startEncode
  else if opcode = 0x2#4 then s.startEmit
  else if opcode = 0x3#4 then s.startDecode
  else if opcode = 0x4#4 then s.startReceive
  else s.completeIllegal

/-- The write to CMD: accepted while IDLE, dropped with OVERRUN while busy (R230, R231). -/
def execWrCmd (v : Word) (s : State) : Host.Outcome State Fault Refusal :=
  .next (s.whenIdle (State.startOpcode (opcodeOf v)))

end Sys2Proof.Machine
end

