-- ==== Sys2Proof/Machine/RegisterReads.lean ====
section
/-!
DEFINITION. The host's register reads (spec 43_host_access.md R239): each returns the register's value at the start of the
cycle, in every phase, and changes nothing else (20_memory.md R69(a)).
-/

namespace Sys2Proof.Machine

/-- ID (R21). -/
def execRdId (s : State) : Host.Outcome State Fault Refusal := .next (s.respond Config.idWord)

/-- CAPS (R22). -/
def execRdCaps (s : State) : Host.Outcome State Fault Refusal := .next (s.respond s.capsWord)

/-- IBUF_SIZE (R34). -/
def execRdIbufSize (s : State) : Host.Outcome State Fault Refusal := .next (s.respond s.ibufSizeWord)

/-- CMD reads 0 (R35). -/
def execRdCmd (s : State) : Host.Outcome State Fault Refusal := .next (s.respond 0#32)

/-- STATUS (R23). -/
def execRdStatus (s : State) : Host.Outcome State Fault Refusal := .next (s.respond s.statusWord)

/-- LATENCY_MS (R25). -/
def execRdLatencyMs (s : State) : Host.Outcome State Fault Refusal := .next (s.respond s.latencyWord)

/-- TIMEOUT_MS (R26). -/
def execRdTimeoutMs (s : State) : Host.Outcome State Fault Refusal := .next (s.respond s.timeoutWord)

/-- IN_LEN (R27). -/
def execRdInLen (s : State) : Host.Outcome State Fault Refusal := .next (s.respond s.inLenWord)

/-- OUT_LEN (R28). -/
def execRdOutLen (s : State) : Host.Outcome State Fault Refusal := .next (s.respond s.outLenWord)

/-- MSG_COUNT (R29). -/
def execRdMsgCount (s : State) : Host.Outcome State Fault Refusal := .next (s.respond s.msgCountWord)

/-- CONSUMED (R33). -/
def execRdConsumed (s : State) : Host.Outcome State Fault Refusal := .next (s.respond s.consumedWord)

/-- Any other offset reads 0 (R65, R66). -/
def execRdReserved (_off : BitVec 19) (s : State) : Host.Outcome State Fault Refusal := .next (s.respond 0#32)

end Sys2Proof.Machine
end

