-- ==== Sys2Proof/Machine/RegisterWrites.lean ====
section
/-!
DEFINITION. The host's register writes other than CMD (spec 43_host_access.md R231 to R235, R238).
-/

namespace Sys2Proof.Machine

/-- STATUS: W1C of OVERRUN, honoured in every phase (R232). -/
def execWrStatus (v : Word) (s : State) : Host.Outcome State Fault Refusal := .next (s.clearOverrun v)

/-- LATENCY_MS (R233). -/
def execWrLatencyMs (v : Word) (s : State) : Host.Outcome State Fault Refusal :=
  .next (s.whenIdle fun t => { t with latencyMs := halfOf v })

/-- TIMEOUT_MS (R234). -/
def execWrTimeoutMs (v : Word) (s : State) : Host.Outcome State Fault Refusal :=
  .next (s.whenIdle fun t => { t with timeoutMs := halfOf v })

/-- IN_LEN, clamped to IBUF_BYTES (R235). -/
def execWrInLen (v : Word) (s : State) : Host.Outcome State Fault Refusal :=
  .next (s.whenIdle fun t => { t with inLen := t.inLenOf v })

/-- Any other write is ignored, in every phase, and does not set OVERRUN (R238, R65, R66). -/
def execWrIgnored (_off : BitVec 19) (_v : Word) (s : State) : Host.Outcome State Fault Refusal := .next s

end Sys2Proof.Machine
end

