-- ==== Sys2Proof/Machine/Dispatch.lean ====
section
/-!
DEFINITION. The meaning of every instruction: one arm per row of spec/opcode_table.json.
-/

namespace Sys2Proof.Machine

def exec (i : Instr) (s : State) : Host.Outcome State Fault Refusal :=
  match i with
  | .encode ign => Sys2Proof.Machine.execEncode ign s
  | .emit ign => Sys2Proof.Machine.execEmit ign s
  | .decode ign => Sys2Proof.Machine.execDecode ign s
  | .receive ign => Sys2Proof.Machine.execReceive ign s
  | .rsvd0 ign => Sys2Proof.Machine.execRsvd0 ign s
  | .rsvd5 ign => Sys2Proof.Machine.execRsvd5 ign s
  | .rsvd6 ign => Sys2Proof.Machine.execRsvd6 ign s
  | .rsvd7 ign => Sys2Proof.Machine.execRsvd7 ign s
  | .rsvd8F low ign => Sys2Proof.Machine.execRsvd8F low ign s
  | .rdId => Sys2Proof.Machine.execRdId s
  | .rdCaps => Sys2Proof.Machine.execRdCaps s
  | .rdIbufSize => Sys2Proof.Machine.execRdIbufSize s
  | .wrCmd v => Sys2Proof.Machine.execWrCmd v s
  | .rdCmd => Sys2Proof.Machine.execRdCmd s
  | .rdStatus => Sys2Proof.Machine.execRdStatus s
  | .wrStatus v => Sys2Proof.Machine.execWrStatus v s
  | .rdLatencyMs => Sys2Proof.Machine.execRdLatencyMs s
  | .wrLatencyMs v => Sys2Proof.Machine.execWrLatencyMs v s
  | .rdTimeoutMs => Sys2Proof.Machine.execRdTimeoutMs s
  | .wrTimeoutMs v => Sys2Proof.Machine.execWrTimeoutMs v s
  | .rdInLen => Sys2Proof.Machine.execRdInLen s
  | .wrInLen v => Sys2Proof.Machine.execWrInLen v s
  | .rdOutLen => Sys2Proof.Machine.execRdOutLen s
  | .rdMsgCount => Sys2Proof.Machine.execRdMsgCount s
  | .rdConsumed => Sys2Proof.Machine.execRdConsumed s
  | .rdObuf j => Sys2Proof.Machine.execRdObuf j s
  | .rdMsg j => Sys2Proof.Machine.execRdMsg j s
  | .rdIbuf j => Sys2Proof.Machine.execRdIbuf j s
  | .wrIbuf j v => Sys2Proof.Machine.execWrIbuf j v s
  | .wrIgnored off v => Sys2Proof.Machine.execWrIgnored off v s
  | .rdReserved off => Sys2Proof.Machine.execRdReserved off s

end Sys2Proof.Machine
end

