-- ==== Sys2Proof/Machine/Reset.lean ====
section
/-!
DEFINITION. The reset input: every state element takes its reset value, the transport keeps what it has, and what a host
access of a reset cycle sees (spec 70_reset_and_hazards.md R300 to R303).
-/

namespace Sys2Proof.Machine

/-- rst = 1: every state element takes its value of R47 (R300). The parameters, the transport's FIFO and stream (R301,
R302) and the model's schedule and draw counter stay; the arrays become unspecified anew (R41, R43, R45). -/
def State.applyReset (s : State) : State :=
  { State.reset with
    cfg := s.cfg
    rxFifo := s.rxFifo
    wire := s.wire
    sched := s.sched
    epoch := s.epoch + 1
    draw := s.draw }

/-- An array read in a reset cycle: unspecified inside the array (R303, U5), 0 past it (R65). -/
def State.readArrayInReset (s : State) (inside : Bool) : State :=
  if inside then s.respondFree else s.respond 0#32

/-- What a host access does in a reset cycle, `s` being the state after the reset: writes are ignored and set no
OVERRUN, register reads return the reset values, array reads are unspecified (R303). -/
def accessInReset (i : Instr) (s : State) : State :=
  match i with
  | .encode _ => s
  | .emit _ => s
  | .decode _ => s
  | .receive _ => s
  | .rsvd0 _ => s
  | .rsvd5 _ => s
  | .rsvd6 _ => s
  | .rsvd7 _ => s
  | .rsvd8F _ _ => s
  | .rdId => s.respond Config.idWord
  | .rdCaps => s.respond s.capsWord
  | .rdIbufSize => s.respond s.ibufSizeWord
  | .wrCmd _ => s
  | .rdCmd => s.respond 0#32
  | .rdStatus => s.respond s.statusWord
  | .wrStatus _ => s
  | .rdLatencyMs => s.respond s.latencyWord
  | .wrLatencyMs _ => s
  | .rdTimeoutMs => s.respond s.timeoutWord
  | .wrTimeoutMs _ => s
  | .rdInLen => s.respond s.inLenWord
  | .wrInLen _ => s
  | .rdOutLen => s.respond s.outLenWord
  | .rdMsgCount => s.respond s.msgCountWord
  | .rdConsumed => s.respond s.consumedWord
  | .rdObuf j => s.readArrayInReset (decide (j.toNat < Config.obufBytes))
  | .rdMsg j => s.readArrayInReset (decide (j.toNat < s.cfg.msgSlots))
  | .rdIbuf j => s.readArrayInReset (decide (j.toNat < s.cfg.ibufBytes))
  | .wrIbuf _ _ => s
  | .wrIgnored _ _ => s
  | .rdReserved _ => s.respond 0#32

end Sys2Proof.Machine
end

