-- ==== Sys2Proof/Machine/Cycle.lean ====
section
/-!
DEFINITION. One clock cycle: its inputs, the host's access, and the controller's step (spec 20_memory.md R71; 10_state.md R31;
43_host_access.md R230, R231; 70_reset_and_hazards.md R300).
-/

namespace Sys2Proof.Machine

/-- The inputs of the coming cycle; when the schedule is exhausted every agent but the controller is quiet (log 2). -/
def State.nextCycle (s : State) : CycleIn := s.sched.headD CycleIn.quiet

/-- The start of a cycle: the schedule moves on, the bytes that become available in this cycle join the transport's FIFO
(R285), and no output is driven and no read answered yet. -/
def State.beginCycle (s : State) (c : CycleIn) : State :=
  { s with sched := s.sched.tail, rxFifo := s.rxFifo ++ c.arrive, pins := Pins.quiet, rdata := none }

/-- What the fetch of the cycle's host access gives: none in the cycle, an instruction, or a request that is no access of
FCODEC. -/
inductive Fetched where
  | noAccess
  | instr (i : Instr)
  | rejected (e : Reject)
  deriving DecidableEq, Repr

/-- Decode the cycle's host access. -/
def fetch (c : CycleIn) (s : State) : Fetched :=
  match c.host with
  | none => .noAccess
  | some r =>
    match decode s.cfg.base r with
    | .ok i => .instr i
    | .error e => .rejected e

/-- A request outside the spec stops the machine (R60, U13; log 12). -/
def stopOn (e : Reject) : Host.Outcome State Fault Refusal :=
  match e with
  | .badWidth width => .refused (.badWidth width)
  | .outsideWindow addr => .fault (.outsideWindow addr)

/-- The controller's part of a cycle that started in `phase`: it steps unless the cycle started in IDLE, since an
accepted CMD write is seen from the next cycle on (R71, R230; D36). A host access of a busy cycle changes nothing that the
controller reads (R74, R231; log 7). -/
def afterAccess (c : CycleIn) (phase : Phase) (s : State) : State :=
  if phase = .idle then s else controllerStep c s

/-- A cycle with rst = 0, from the state at its start. -/
def normalCycle (c : CycleIn) (s : State) : Host.Outcome State Fault Refusal :=
  match fetch c s with
  | .noAccess => .next (afterAccess c s.phase s)
  | .rejected e => stopOn e
  | .instr i =>
    match exec i s with
    | .next t => .next (afterAccess c s.phase t)
    | .fault f => .fault f
    | .refused r => .refused r

/-- A cycle with rst = 1: reset takes precedence over the host access and the controller (R300, R303). -/
def resetCycle (c : CycleIn) (s : State) : Host.Outcome State Fault Refusal :=
  match fetch c s with
  | .noAccess => .next s.applyReset
  | .rejected e => stopOn e
  | .instr i => .next (accessInReset i s.applyReset)

/-- One clock cycle with inputs `c`. Parameters outside their legal ranges are refused (U15). -/
def runCycle (c : CycleIn) (s : State) : Host.Outcome State Fault Refusal :=
  if s.cfg.legal then
    if c.rst then resetCycle c (s.beginCycle c) else normalCycle c (s.beginCycle c)
  else .refused .illegalParameters

end Sys2Proof.Machine
end

