-- ==== Sys2Proof/Machine/Step.lean ====
section
/-!
DEFINITION. The step, one clock cycle, and the placing of one instruction where the step fetches its next one.
-/

namespace Sys2Proof.Machine

/-- One clock cycle (spec 10_state.md R31, 60_exceptions.md R280). -/
def step (s : State) : Host.Outcome State Fault Refusal := runCycle s.nextCycle s

/-- `s` with the instruction of a table word as the host access of its next cycle, that cycle not being a reset cycle; the
cycle's other inputs and the later cycles stay (log 13). -/
def State.withFetchWord (s : State) (nbits w : Nat) : State :=
  { s with
    sched := { s.nextCycle with rst := false, host := some (tableRequest s.cfg.base nbits w) } :: s.sched.tail }

end Sys2Proof.Machine
end

