-- ==== Sys2Proof/Machine/HostProgram.lean ====
section
/-!
DEFINITION. The host's side: the host-program notation and its expansion into bus accesses (spec 30_encoding.md R103), the
request and response sequence (70_reset_and_hazards.md R306), and what a host reads off FCODEC's state (30_encoding.md R101 the
bytes of a message, 42_receiver.md R204 the outcomes of a RECEIVE).
-/

namespace Sys2Proof.Machine

/-- NAME of the notation's register accesses (20_memory.md R61). -/
inductive RegName where
  | id | caps | ibufSize | cmd | status | latencyMs | timeoutMs | inLen | outLen | msgCount | consumed
  deriving DecidableEq, Repr

/-- `off(NAME)` (R61, R103). -/
def RegName.offset : RegName → Nat
  | .id => 0x00000
  | .caps => 0x00004
  | .ibufSize => 0x00008
  | .cmd => 0x00010
  | .status => 0x00014
  | .latencyMs => 0x00018
  | .timeoutMs => 0x0001C
  | .inLen => 0x00020
  | .outLen => 0x00024
  | .msgCount => 0x00028
  | .consumed => 0x0002C

/-- `opcode(OP)` (R97). -/
def Op.opcode : Op → BitVec 4
  | .encode => 0x1#4
  | .emit => 0x2#4
  | .decode => 0x3#4
  | .receive => 0x4#4

/-- One line of a host program (R103). `wait` is a run of STATUS reads; their number is the host's. -/
inductive HostLine where
  | wr (name : RegName) (v : Word)
  | rd (name : RegName)
  | wrIbuf (i : Nat) (b : Byte)
  | rdIbuf (i : Nat)
  | rdObuf (i : Nat)
  | rdMsg (i : Nat)
  | cmd (op : Op)
  | load (bytes : List Byte)
  | wait (reads : Nat)
  | clrOverrun
  deriving DecidableEq, Repr

/-- The writes `wr IBUF[i], b` of consecutive bytes from index `i` on (R103). -/
def loadBytes (base : Nat) : Nat → List Byte → List Request
  | _, [] => []
  | i, b :: rest => .write 4 (base + (0x40000 + 4 * i)) (byteWord b) :: loadBytes base (i + 1) rest

/-- The bus accesses a line stands for (R103). -/
def HostLine.expand (base : Nat) : HostLine → List Request
  | .wr name v => [.write 4 (base + name.offset) v]
  | .rd name => [.read 4 (base + name.offset)]
  | .wrIbuf i b => [.write 4 (base + (0x40000 + 4 * i)) (byteWord b)]
  | .rdIbuf i => [.read 4 (base + (0x40000 + 4 * i))]
  | .rdObuf i => [.read 4 (base + (0x01000 + 4 * i))]
  | .rdMsg i => [.read 4 (base + (0x20000 + 4 * i))]
  | .cmd op => [.write 4 (base + RegName.cmd.offset) (op.opcode.setWidth 32)]
  | .load bytes =>
    loadBytes base 0 bytes ++ [.write 4 (base + RegName.inLen.offset) (BitVec.ofNat 32 bytes.length)]
  | .wait reads => List.replicate reads (.read 4 (base + RegName.status.offset))
  | .clrOverrun => [.write 4 (base + RegName.status.offset) 0x200#32]

/-- BUSY in a value that a read of STATUS returned: 0 is the end of `wait` and of an operation (R103, R240, R290). -/
def busyIn (status : Word) : Bool := status.getLsbD 0

/-- RESULT in a value that a read of STATUS returned (R23, R24). -/
def resultIn (status : Word) : BitVec 4 := status.extractLsb' 4 4

/-- What the host reads in one request and response exchange, as far as what it does next depends on it (R306). -/
structure ExchangeAnswers where
  /-- How many STATUS reads the wait after EMIT takes. -/
  sendReads : Nat
  /-- The value of the last of them. -/
  sendStatus : Word
  /-- How many STATUS reads the wait after RECEIVE takes. -/
  receiveReads : Nat
  /-- The value that the read of MSG_COUNT returns. -/
  msgCount : Word
  /-- The values that the reads of MSG[0], MSG[1], ... return. -/
  descriptors : List Word
  deriving DecidableEq, Repr

/-- R306, the source's send path: `load payload; cmd EMIT; wait`. -/
def sendLines (payload : List Byte) (reads : Nat) : List HostLine := [.load payload, .cmd .emit, .wait reads]

/-- R306, the source's receive path: `cmd RECEIVE; wait; read IN_LEN, MSG_COUNT`. -/
def receiveLines (reads : Nat) : List HostLine := [.cmd .receive, .wait reads, .rd .inLen, .rd .msgCount]

/-- The reads of MSG[0 .. count) (R306). -/
def descriptorLines (count : Nat) : List HostLine := (List.range count).map .rdMsg

/-- The reads of the IBUF bytes that a descriptor points to, IBUF[OFFSET .. OFFSET + PLEN) (R101, R306). -/
def payloadLines (d : Word) : List HostLine := (List.range (descPlen d)).map fun j => .rdIbuf (descOffset d + j)

/-- The request and response sequence of R306, with the answers the host gets: the payload is sent; only if that EMIT's RESULT is
OK does RECEIVE follow, then the reads of IN_LEN and MSG_COUNT, of MSG_COUNT descriptors, and of the bytes of each. -/
def requestResponse (payload : List Byte) (a : ExchangeAnswers) : List HostLine :=
  sendLines payload a.sendReads ++
    if resultIn a.sendStatus = Result.ok.code then
      receiveLines a.receiveReads ++ descriptorLines a.msgCount.toNat ++
        (a.descriptors.take a.msgCount.toNat).flatMap payloadLines
    else []

/-- The accesses of a host program (R103). -/
def programAccesses (base : Nat) (lines : List HostLine) : List Request := lines.flatMap (HostLine.expand base)

/-- The source's view of a payload: its command code and its fields, none for an empty message (R93). -/
def messageView (payload : List Byte) : Option (Byte × List Byte) :=
  match payload with
  | [] => none
  | code :: fields => some (code, fields)

/-- The bytes of the i-th message, `IBUF[OFFSET .. OFFSET + PLEN)` of MSG[i] (R101). They are the message only while IBUF holds
the bytes that were scanned (R311). -/
def State.messageBytes (s : State) (i : Nat) : List Byte :=
  (List.range (descPlen (s.msgAt i))).map fun j => s.ibufAt (descOffset (s.msgAt i) + j)

/-- The three outcomes of a RECEIVE (R204). -/
inductive ReceiveOutcome where
  /-- Nothing was received. -/
  | nothing
  /-- Bytes were received but none formed a frame. -/
  | unparseable
  /-- At least one message. -/
  | answered
  deriving DecidableEq, Repr

/-- The outcome of the RECEIVE that completed last, from RESULT and IN_LEN (R204). -/
def State.receiveOutcome (s : State) : ReceiveOutcome :=
  if s.result = .ok then .answered else if s.inLen = 0#16 then .nothing else .unparseable

end Sys2Proof.Machine
end

