-- ==== Sys2Proof/Safety.lean ====
section
/-!
DEFINITION. What a safe run is, in the terms the statements use: the invariant of reachable states and the inputs the spec
covers (spec 95_test_vectors.md section 4; 10_state.md R27 to R48; 41_scanner.md R160, R165).
-/

namespace Sys2Proof.Machine

/-- Every index of the array's list is below a bound. -/
def Memory.below {α : Type} (m : Memory α) (bound : Nat) : Bool := m.all fun e => decide (e.1 < bound)

/-- The three arrays are in canonical form and hold only entries that exist (R40, R42, R44). -/
abbrev State.arraysOk (s : State) : Prop :=
  s.ibuf.wf = true ∧ s.ibuf.below s.cfg.ibufBytes = true ∧
  s.obuf.wf = true ∧ s.obuf.below Config.obufBytes = true ∧
  s.msg.wf = true ∧ s.msg.below s.cfg.msgSlots = true

/-- The length registers stay in the ranges their rules give (R27, R28, R29, R33). -/
abbrev State.lengthsOk (s : State) : Prop :=
  s.inLen.toNat ≤ s.cfg.ibufBytes ∧ s.outLen.toNat ≤ Config.obufBytes ∧
  s.msgCount.toNat ≤ s.cfg.msgSlots ∧ s.consumed.toNat ≤ s.cfg.ibufBytes

/-- In SCAN: the cursor is inside the buffer, the frames found so far lie before it and take three bytes each (R160, R164,
R165, R166). -/
abbrev State.scanOk (s : State) : Prop :=
  s.len.toNat ≤ s.cfg.ibufBytes ∧ s.q.toNat ≤ s.len.toNat ∧
  s.last.toNat ≤ s.q.toNat ∧ 3 * s.n.toNat ≤ s.last.toNat

/-- What each phase guarantees of the operation in progress and of its counters (R31, R97, R128, R195, R198). -/
def State.phaseOk (s : State) : Bool :=
  match s.phase with
  | .idle => true
  | .enc => decide (s.op = .encode ∨ s.op = .emit)
  | .flush => decide (s.op = .emit ∧ 1 ≤ s.flen.toNat ∧ s.flen.toNat ≤ Config.obufBytes)
  | .tx => decide (s.op = .emit ∧ s.k.toNat < s.flen.toNat ∧ s.flen.toNat ≤ Config.obufBytes)
  | .scan =>
    decide ((s.op = .decode ∧ s.len = s.inLen ∨
      s.op = .receive ∧ s.cfg.rxPresent = true ∧ s.len = s.wlen) ∧ s.scanOk)
  | .arm => decide (s.op = .receive ∧ s.cfg.rxPresent = true ∧ s.wlen = 0#16 ∧ s.full = false)
  | .drain =>
    decide (s.op = .receive ∧ s.cfg.rxPresent = true ∧ 1 ≤ s.wlen.toNat ∧ s.wlen.toNat ≤ s.cfg.ibufBytes ∧
      s.full = false)

/-- The invariant of FCODEC. -/
abbrev State.Inv (s : State) : Prop :=
  s.cfg.legal = true ∧ s.arraysOk ∧ s.lengthsOk ∧ s.phaseOk = true

/-- The cycle's inputs are ones the spec covers: its host access, if any, is a 32-bit access inside the window (R60). -/
abbrev CycleIn.covered (c : CycleIn) (base : Nat) : Prop :=
  match c.host with
  | none => True
  | some r => ∃ i, decode base r = .ok i

/-- The cycle holds no reset and no host access: only the controller, the transport and the time source act. -/
abbrev CycleIn.unattended (c : CycleIn) : Prop := c.rst = false ∧ c.host = none

/-- The window accumulated so far, IBUF[0 .. wlen) (R191, R195). -/
def State.window (s : State) : List Byte := s.ibufPrefix s.wlen.toNat

/-- The bytes a running EMIT has still to transmit, OBUF[k .. flen) (R128). -/
def State.toSend (s : State) : List Byte :=
  if s.phase = .tx then (s.obufPrefix s.flen.toNat).drop s.k.toNat else []

/-- MSG_COUNT, CONSUMED and MSG[0 .. MSG_COUNT) report `d`: the number of messages, the bytes consumed, each descriptor with OFFSET in
bits [15:0], PLEN in bits [23:16] and 0 in bits [31:24] (R100), and each message the bytes of IBUF its descriptor points to
(R101, R150). -/
def State.reports (s : State) (d : Decoded) : Prop :=
  s.msgCount.toNat = d.descs.length ∧ s.consumed.toNat = d.consumed ∧
  (∀ i (h : i < d.descs.length),
    ((s.msgAt i).extractLsb' 0 16).toNat = d.descs[i].1 ∧ ((s.msgAt i).extractLsb' 16 8).toNat = d.descs[i].2 ∧
    (s.msgAt i).extractLsb' 24 8 = 0#8) ∧
  d.msgs = (List.range d.descs.length).map s.messageBytes

/-- A run of `k` cycles in which the machine never stops. -/
def runsTo (k : Nat) (s t : State) : Prop := Host.Core.run Sys2Proof.core k s = .next t

end Sys2Proof.Machine
end

