-- ==== Sys2Proof/Certificates/Slice0/Obligations.lean ====
section
/-!
DEFINITION. The statements for the provers, each a proposition about the model that the spec's rules give.
-/

open Sys2Proof Sys2Proof.Machine

/-! ### Encoding -/

/-- Every well-formed instruction, with every operand at every value its encoding admits, is what its encoding decodes to,
wherever the window sits (R61, R97; opcode_table.json). -/
def Obligations.EncodedInstructionDecodesToItself : Prop :=
  ∀ (base : Nat) (i : Instr), i.wellFormed = true → decode base (encode base i) = .ok i

/-- What a request decodes to is well-formed and encodes back to that request: each request has one meaning and no bit of it
is dropped. -/
def Obligations.DecodedRequestEncodesBack : Prop :=
  ∀ (base : Nat) (r : Request) (i : Instr), decode base r = .ok i → i.wellFormed = true ∧ encode base i = r

/-- Requests written out from the spec's tables decode to their rows: CMD words with ignored bits set (R97), registers and array
entries (R61, R103), a misaligned and a reserved offset (R65, R66). -/
def Obligations.SampleRequestsDecodeToTheirRows : Prop :=
  decodeCmd 0x00000013#32 = .decode 1#28 ∧ decodeCmd 0xFFFFFFF1#32 = .encode 0xFFFFFFF#28 ∧
  decodeCmd 0x0000000B#32 = .rsvd8F 3#3 0#28 ∧
  decode 0 (.read 4 0x00014) = .ok .rdStatus ∧ decode 0 (.write 4 0x00014 0x200#32) = .ok (.wrStatus 0x200#32) ∧
  decode 0 (.read 4 0x20554) = .ok (.rdMsg 341#15) ∧ decode 0 (.read 4 0x01404) = .ok (.rdObuf 257#10) ∧
  decode 0x80000 (.write 4 0xC1F40 7#32) = .ok (.wrIbuf 2000#16 7#32) ∧
  decode 0 (.read 4 0x00016) = .ok (.rdReserved 0x00016#19) ∧
  decode 0 (.write 4 0x0000C 1#32) = .ok (.wrIgnored 0x0000C#19 1#32)

/-- An access that is not 32 bits wide, or whose address is not in the window at BASE, is rejected by its name (R60).
Which stop stands for which input is the model's choice (log 12). -/
def Obligations.RequestsOutsideTheWindowOrWidthAreRejected : Prop :=
  ∀ (base width addr : Nat) (v : Word),
    (width ≠ 4 →
      decode base (.read width addr) = .error (.badWidth width) ∧
      decode base (.write width addr v) = .error (.badWidth width)) ∧
    (addr < base ∨ base + 0x80000 ≤ addr →
      decode base (.read 4 addr) = .error (.outsideWindow addr) ∧
      decode base (.write 4 addr v) = .error (.outsideWindow addr))

/-! ### The step -/

/-- A cycle with legal parameters and rst = 0 whose host access decodes to `i` is: the cycle's start, exec of `i`
there, and the controller's step of the phase the cycle started in, which is none in IDLE (R71, R230, R31). That the
access comes first and the controller works on its result is the model's choice (log 7), and the schedule of inputs is
its form of the environment (log 2). -/
def Obligations.StepRunsTheDecodedInstruction : Prop :=
  ∀ (s : State) (r : Request) (i : Instr),
    s.cfg.legal = true → s.nextCycle.rst = false → s.nextCycle.host = some r → decode s.cfg.base r = .ok i →
    ∃ t, exec i (s.beginCycle s.nextCycle) = .next t ∧
      step s = .next (if s.phase = .idle then t else controllerStep s.nextCycle t)

/-- A cycle without host access and without reset is the controller's one step of the phase, and in IDLE nothing moves but
the cycle's own inputs (R31, R284). The schedule of inputs is the model's form of the environment (log 2). -/
def Obligations.StepWithoutAccessIsTheControllersStep : Prop :=
  ∀ s : State, s.cfg.legal = true → s.nextCycle.rst = false → s.nextCycle.host = none →
    step s = .next (if s.phase = .idle then s.beginCycle s.nextCycle
      else controllerStep s.nextCycle (s.beginCycle s.nextCycle))

/-- FCODEC raises no trap, exception or fault: the machine goes on from every state with legal parameters under every
input the spec covers, and stops, by name, only where the parameters (U15) or the host access (R60, U13) lie outside the
spec. Which stop stands for which input is the model's choice (log 12). -/
def Obligations.StepStopsExactlyOutsideTheSpec : Prop :=
  ∀ s : State,
    (s.cfg.legal = true → s.nextCycle.covered s.cfg.base → ∃ t, step s = .next t) ∧
    (s.cfg.legal = true → ∀ r width, s.nextCycle.host = some r → decode s.cfg.base r = .error (.badWidth width) →
      step s = .refused (.badWidth width)) ∧
    (s.cfg.legal = true → ∀ r addr, s.nextCycle.host = some r → decode s.cfg.base r = .error (.outsideWindow addr) →
      step s = .fault (.outsideWindow addr)) ∧
    (s.cfg.legal = false → step s = .refused .illegalParameters)

/-! ### Host reads -/

/-- ID, CAPS and IBUF_SIZE read as their constants in every phase, a write to one of them is ignored, and nothing else
changes (R21, R22, R34). -/
def Obligations.ConstantRegistersReadAndIgnoreWrites : Prop :=
  ∀ (s : State) (v : Word), s.cfg.legal = true →
    exec .rdId s = .next { s with rdata := some 0x46430007#32 } ∧
    exec .rdCaps s = .next { s with rdata := some (if s.cfg.rxPresent then 1#32 else 0#32) } ∧
    exec .rdIbufSize s = .next { s with rdata := some (BitVec.ofNat 32 s.cfg.ibufBytes) } ∧
    ∀ off ∈ [0x00000#19, 0x00004#19, 0x00008#19],
      decode s.cfg.base (.write 4 (s.cfg.base + off.toNat) v) = .ok (.wrIgnored off v) ∧
      exec (.wrIgnored off v) s = .next s

/-- A read of STATUS returns BUSY in bit 0, 1 exactly when PHASE is not IDLE, RESULT in bits [7:4] (NONE 0, OK 1,
PAYLOAD_TOO_LARGE 2, NO_RESPONSE 3, ILLEGAL_OP 4, never above 4), WINDOW_FULL in bit 8, OVERRUN in bit 9 and 0 in
every reserved bit, and changes nothing else (R23, R24, R32). -/
def Obligations.StatusReadHasTheRulesLayout : Prop :=
  ∀ s : State, ∃ w : Word, exec .rdStatus s = .next { s with rdata := some w } ∧
    w.getLsbD 0 = decide (s.phase ≠ .idle) ∧ w.extractLsb' 1 3 = 0#3 ∧
    (s.result = .none → w.extractLsb' 4 4 = 0#4) ∧ (s.result = .ok → w.extractLsb' 4 4 = 1#4) ∧
    (s.result = .payloadTooLarge → w.extractLsb' 4 4 = 2#4) ∧ (s.result = .noResponse → w.extractLsb' 4 4 = 3#4) ∧
    (s.result = .illegalOp → w.extractLsb' 4 4 = 4#4) ∧ (w.extractLsb' 4 4).toNat ≤ 4 ∧
    w.getLsbD 8 = s.windowFull ∧ w.getLsbD 9 = s.overrun ∧ w.extractLsb' 10 22 = 0#22

/-- A read of a register returns its value at the start of the cycle, zero-extended, in every phase, and changes nothing else;
CMD reads 0 (R239, R69(a)). -/
def Obligations.RegisterReadsReturnTheirValueAndChangeNothing : Prop :=
  ∀ s : State,
    exec .rdCmd s = .next { s with rdata := some 0#32 } ∧
    exec .rdLatencyMs s = .next { s with rdata := some (s.latencyMs.setWidth 32) } ∧
    exec .rdTimeoutMs s = .next { s with rdata := some (s.timeoutMs.setWidth 32) } ∧
    exec .rdInLen s = .next { s with rdata := some (s.inLen.setWidth 32) } ∧
    exec .rdOutLen s = .next { s with rdata := some (s.outLen.setWidth 32) } ∧
    exec .rdMsgCount s = .next { s with rdata := some (s.msgCount.setWidth 32) } ∧
    exec .rdConsumed s = .next { s with rdata := some (s.consumed.setWidth 32) }

/-- A read of OBUF[i]: past the array 0; while ENCODE or EMIT runs an unspecified value, drawn free; otherwise the stored
byte, zero-extended. Nothing else changes but the draw counter (R63, R65, R237). That an unspecified read draws a free
value of its own is the model's choice (log 4). -/
def Obligations.ObufReadIsStoredByteOrFreeOrZero : Prop :=
  ∀ (i : BitVec 10) (s : State),
    (257 ≤ i.toNat → exec (.rdObuf i) s = .next { s with rdata := some 0#32 }) ∧
    (i.toNat ≤ 256 → s.phase = .idle ∨ (s.op ≠ .encode ∧ s.op ≠ .emit) →
      exec (.rdObuf i) s = .next { s with rdata := some ((s.obufAt i.toNat).setWidth 32) }) ∧
    (i.toNat ≤ 256 → s.phase ≠ .idle ∧ (s.op = .encode ∨ s.op = .emit) →
      exec (.rdObuf i) s = .next { s with rdata := some (Config.unspecifiedRead s.draw), draw := s.draw + 1 })

/-- A read of MSG[i]: at or past MSG_SLOTS 0; while DECODE or RECEIVE runs an unspecified value, drawn free; otherwise the
stored descriptor (R64, R65, R237). That an unspecified read draws a free value of its own is the model's choice (log 4). -/
def Obligations.MsgReadIsStoredWordOrFreeOrZero : Prop :=
  ∀ (i : BitVec 15) (s : State),
    (s.cfg.ibufBytes / 3 ≤ i.toNat → exec (.rdMsg i) s = .next { s with rdata := some 0#32 }) ∧
    (i.toNat < s.cfg.ibufBytes / 3 → s.phase = .idle ∨ (s.op ≠ .decode ∧ s.op ≠ .receive) →
      exec (.rdMsg i) s = .next { s with rdata := some (s.msgAt i.toNat) }) ∧
    (i.toNat < s.cfg.ibufBytes / 3 → s.phase ≠ .idle ∧ (s.op = .decode ∨ s.op = .receive) →
      exec (.rdMsg i) s = .next { s with rdata := some (Config.unspecifiedRead s.draw), draw := s.draw + 1 })

/-- A read of IBUF[i]: at or past IBUF_BYTES 0; while RECEIVE runs an unspecified value, drawn free; otherwise the stored
byte, zero-extended (R62, R65, R237). That an unspecified read draws a free value of its own is the model's choice (log
4). -/
def Obligations.IbufReadIsStoredByteOrFreeOrZero : Prop :=
  ∀ (i : BitVec 16) (s : State),
    (s.cfg.ibufBytes ≤ i.toNat → exec (.rdIbuf i) s = .next { s with rdata := some 0#32 }) ∧
    (i.toNat < s.cfg.ibufBytes → s.phase = .idle ∨ s.op ≠ .receive →
      exec (.rdIbuf i) s = .next { s with rdata := some ((s.ibufAt i.toNat).setWidth 32) }) ∧
    (i.toNat < s.cfg.ibufBytes → s.phase ≠ .idle ∧ s.op = .receive →
      exec (.rdIbuf i) s = .next { s with rdata := some (Config.unspecifiedRead s.draw), draw := s.draw + 1 })

/-- The row RD_RESERVED reads 0 and the row WR_IGNORED changes nothing, in every phase; and every read of a reserved offset, of a
misaligned offset, or past an array, whichever row it decodes to, reads 0, and every write there is ignored, with no side effect
(R65, R66). -/
def Obligations.ReservedAndMisalignedOffsetsReadZeroIgnoreWrites : Prop :=
  (∀ (s : State) (off : BitVec 19) (v : Word),
    exec (.rdReserved off) s = .next { s with rdata := some 0#32 } ∧ exec (.wrIgnored off v) s = .next s) ∧
  ∀ (s : State) (off : BitVec 19) (v : Word),
    off.toNat % 4 ≠ 0 ∨ off = 0x0000C#19 ∨ (0x30 ≤ off.toNat ∧ off.toNat < 0x1000) ∨
      (0x01404 ≤ off.toNat ∧ off.toNat < 0x20000) ∨
      (0x20000 + 4 * s.cfg.msgSlots ≤ off.toNat ∧ off.toNat < 0x40000) ∨
      0x40000 + 4 * s.cfg.ibufBytes ≤ off.toNat →
    ∃ i j, decode s.cfg.base (.read 4 (s.cfg.base + off.toNat)) = .ok i ∧
      exec i s = .next { s with rdata := some 0#32 } ∧
      decode s.cfg.base (.write 4 (s.cfg.base + off.toNat) v) = .ok j ∧ exec j s = .next s

/-! ### Host writes -/

/-- While IDLE, LATENCY_MS and TIMEOUT_MS take bits [15:0] of the datum, and nothing else changes (R233, R234). -/
def Obligations.LatencyAndTimeoutWritesTakeTheLowHalf : Prop :=
  ∀ (s : State) (v : Word), s.phase = .idle →
    exec (.wrLatencyMs v) s = .next { s with latencyMs := v.setWidth 16 } ∧
    exec (.wrTimeoutMs v) s = .next { s with timeoutMs := v.setWidth 16 }

/-- While IDLE, IN_LEN takes min(v[15:0], IBUF_BYTES), whatever bits [31:16] are, and nothing else changes (R235). -/
def Obligations.InLenWriteStoresTheClampedLowHalf : Prop :=
  ∀ (s : State) (v : Word), s.phase = .idle →
    exec (.wrInLen v) s = .next { s with inLen := BitVec.ofNat 16 (min (v.toNat % 65536) s.cfg.ibufBytes) }

/-- While IDLE, a write to IBUF[i] stores bits [7:0] of the datum there: that byte reads as written, every other byte of IBUF
reads as before, and nothing else, IN_LEN included, changes (R62, R236). -/
def Obligations.IbufWriteStoresOneByte : Prop :=
  ∀ (s : State) (i : BitVec 16) (v : Word), s.phase = .idle → i.toNat < s.cfg.ibufBytes →
    ∃ t, exec (.wrIbuf i v) s = .next t ∧ t = { s with ibuf := t.ibuf } ∧
      t.ibufAt i.toNat = v.setWidth 8 ∧ ∀ j, j ≠ i.toNat → t.ibufAt j = s.ibufAt j

/-- A write to STATUS clears OVERRUN when bit 9 of the datum is 1 and changes nothing otherwise, in every phase (R232). -/
def Obligations.StatusWriteOnlyClearsOverrun : Prop :=
  ∀ (s : State) (v : Word),
    (v.getLsbD 9 = true → exec (.wrStatus v) s = .next { s with overrun := false }) ∧
    (v.getLsbD 9 = false → exec (.wrStatus v) s = .next s)

/-- While an operation runs, every write to CMD (whatever the opcode), LATENCY_MS, TIMEOUT_MS, IN_LEN or an existing IBUF entry has no
effect but to set OVERRUN; an ignored write and a write past IBUF do not set it; a W1C write to STATUS is honoured (R231). -/
def Obligations.WritesWhileBusyAreDroppedWithOverrun : Prop :=
  ∀ (s : State) (v : Word) (g : BitVec 28) (low : BitVec 3) (i : BitVec 16) (off : BitVec 19), s.phase ≠ .idle →
    (∀ a ∈ [Instr.encode g, .emit g, .decode g, .receive g, .rsvd0 g, .rsvd5 g, .rsvd6 g, .rsvd7 g, .rsvd8F low g,
        .wrCmd v, .wrLatencyMs v, .wrTimeoutMs v, .wrInLen v],
      exec a s = .next { s with overrun := true }) ∧
    (i.toNat < s.cfg.ibufBytes → exec (.wrIbuf i v) s = .next { s with overrun := true }) ∧
    (s.cfg.ibufBytes ≤ i.toNat → exec (.wrIbuf i v) s = .next s) ∧
    exec (.wrIgnored off v) s = .next s ∧
    (v.getLsbD 9 = true → exec (.wrStatus v) s = .next { s with overrun := false })

/-- Writes to the read-only registers, to the OBUF and MSG windows and to every reserved offset below the IBUF window are the row
WR_IGNORED, and it has no effect in any phase (R238). -/
def Obligations.WritesToReadOnlyOffsetsAreIgnored : Prop :=
  ∀ (s : State) (off : BitVec 19) (v : Word),
    off.toNat < 0x40000 → off ∉ [0x00010#19, 0x00014#19, 0x00018#19, 0x0001C#19, 0x00020#19] →
    decode s.cfg.base (.write 4 (s.cfg.base + off.toNat) v) = .ok (.wrIgnored off v) ∧
    exec (.wrIgnored off v) s = .next s

/-! ### Commands -/

/-- An accepted CMD write with a legal opcode starts the operation's first phase with its entry actions and changes nothing else;
so for the command's own row and for the write to CMD (R230, R161, R192). -/
def Obligations.AcceptedCommandsEnterTheirFirstPhase : Prop :=
  ∀ (s : State) (g : BitVec 28), s.phase = .idle →
    (∀ a ∈ [Instr.encode g, .wrCmd (g ++ 1#4)], exec a s = .next { s with phase := .enc, op := .encode }) ∧
    (∀ a ∈ [Instr.emit g, .wrCmd (g ++ 2#4)], exec a s = .next { s with phase := .enc, op := .emit }) ∧
    (∀ a ∈ [Instr.decode g, .wrCmd (g ++ 3#4)],
      exec a s = .next { s with
        phase := .scan, op := .decode, len := s.inLen, q := 0#17, n := 0#16, last := 0#17 }) ∧
    (s.cfg.rxPresent = true → ∀ a ∈ [Instr.receive g, .wrCmd (g ++ 4#4)],
      exec a s = .next { s with
        phase := .arm, op := .receive, elapsed := 0#17, idle := 0#17, wlen := 0#16, full := false })

/-- An accepted CMD write with a reserved opcode, RECEIVE included when RX_PRESENT = 0, sets RESULT to ILLEGAL_OP and WINDOW_FULL to 0
in its own cycle, and nothing else: no phase is entered and BUSY stays 0 (R272). -/
def Obligations.ReservedOpcodesOnlySetIllegalOp : Prop :=
  ∀ (s : State) (g : BitVec 28) (low : BitVec 3) (v : Word), s.phase = .idle →
    (∀ a ∈ [Instr.rsvd0 g, .rsvd5 g, .rsvd6 g, .rsvd7 g, .rsvd8F low g],
      exec a s = .next { s with result := .illegalOp, windowFull := false }) ∧
    (s.cfg.rxPresent = false → exec (.receive g) s = .next { s with result := .illegalOp, windowFull := false }) ∧
    ((opcodeOf v).toNat = 0 ∨ 5 ≤ (opcodeOf v).toNat ∨ ((opcodeOf v).toNat = 4 ∧ s.cfg.rxPresent = false) →
      exec (.wrCmd v) s = .next { s with result := .illegalOp, windowFull := false })

/-- In every state, a write of v to CMD does exactly what the CMD row of v does (R97, R230, R231). -/
def Obligations.CmdWriteIsTheRowOfItsWord : Prop :=
  ∀ (v : Word) (s : State), exec (.wrCmd v) s = exec (decodeCmd v) s

/-- Bits [31:4] of a CMD word have no effect (R97). -/
def Obligations.CmdWordsHighBitsAreIgnored : Prop :=
  ∀ (v w : Word) (s : State), v.extractLsb' 0 4 = w.extractLsb' 0 4 → exec (decodeCmd v) s = exec (decodeCmd w) s

/-! ### The emitter -/

/-- `encode(P)`: 255 bytes or more fail with PayloadTooLarge, [0A] is returned unmodified, every other payload is framed as
AA, 1 + n, P, 0A (R120). -/
def Obligations.EncodeFramesEveryPayloadUpTo254 : Prop :=
  ∀ p : List Byte,
    (255 ≤ p.length → encodePayload p = .payloadTooLarge) ∧
    (p = [0x0A#8] → encodePayload p = .frame [0x0A#8]) ∧
    (p.length ≤ 254 → p ≠ [0x0A#8] →
      encodePayload p = .frame ([0xAA#8, BitVec.ofNat 8 (p.length + 1)] ++ p ++ [0x0A#8]))

/-- Two payloads that encode to the same bytes are the same payload, and a framed output has at least three bytes, so it is
never the unframed [0A] (R132(b), R132(c)). -/
def Obligations.EncodeIsInjective : Prop :=
  ∀ (p p' f : List Byte), encodePayload p = .frame f → encodePayload p' = .frame f →
    p = p' ∧ (p ≠ [0x0A#8] → f.length = p.length + 3 ∧ 3 ≤ f.length)

/-- In an ENC cycle with work, a payload of 255 bytes or more completes ENCODE and EMIT alike with PAYLOAD_TOO_LARGE and
OUT_LEN = 0: no flush, no transmission, OBUF unchanged, and nothing else changes (R126, R121). That a cycle has work is
the model's input (log 5). -/
def Obligations.TooLargePayloadCompletesWithoutIo : Prop :=
  ∀ (c : CycleIn) (s : State), s.phase = .enc → c.work ≠ 0 → 255 ≤ s.inLen.toNat →
    controllerStep c s =
      { s with outLen := 0#9, result := .payloadTooLarge, windowFull := false, phase := .idle }

/-- In an ENC cycle with work, ENCODE of at most 254 bytes completes with OK: OBUF[0 .. OUT_LEN) is the frame, OBUF beyond
it is unchanged, OUT_LEN and flen are its length, and nothing else changes (R121, R123). That a cycle has work is the
model's input (log 5). -/
def Obligations.EncodeLeavesTheFrameInObuf : Prop :=
  ∀ (c : CycleIn) (s : State), s.phase = .enc → s.op = .encode → c.work ≠ 0 → s.inLen.toNat ≤ 254 →
    ∃ t f, encodePayload (s.ibufPrefix s.inLen.toNat) = .frame f ∧ controllerStep c s = t ∧
      t = { s with
        obuf := t.obuf, flen := BitVec.ofNat 9 f.length, outLen := BitVec.ofNat 9 f.length
        result := .ok, windowFull := false, phase := .idle } ∧
      t.obufPrefix t.outLen.toNat = f ∧ ∀ j, f.length ≤ j → t.obufAt j = s.obufAt j

/-- In an ENC cycle with work, EMIT of at most 254 bytes puts the frame in OBUF and goes on to FLUSH; OUT_LEN and RESULT
keep their values (R125, R48). That a cycle has work is the model's input (log 5). -/
def Obligations.EmitGoesFromEncToFlush : Prop :=
  ∀ (c : CycleIn) (s : State), s.phase = .enc → s.op = .emit → c.work ≠ 0 → s.inLen.toNat ≤ 254 →
    ∃ t f, encodePayload (s.ibufPrefix s.inLen.toNat) = .frame f ∧ controllerStep c s = t ∧
      t = { s with obuf := t.obuf, flen := BitVec.ofNat 9 f.length, phase := .flush } ∧
      t.obufPrefix f.length = f ∧ ∀ j, f.length ≤ j → t.obufAt j = s.obufAt j

/-- The FLUSH cycle is one cycle: rx_flush is asserted, every byte the transport holds, those that became available in
that very cycle included, is discarded, nothing is transmitted, and TX follows with k = 0 (R127, R287). The schedule of
inputs is the model's form of the environment (log 2). -/
def Obligations.FlushLastsOneCycleAndDiscardsAllInput : Prop :=
  ∀ s : State, s.cfg.legal = true → s.phase = .flush → s.nextCycle.unattended →
    step s = .next { s with
      sched := s.sched.tail, rxFifo := [], k := 0#9, phase := .tx, rdata := none
      pins := { rxPop := false, rxFlush := true, tx := none } }

/-- Each TX cycle offers OBUF[k]; it is transferred exactly when tx_ready = 1; the transfer of the last byte completes EMIT with OK and
OUT_LEN = flen; without tx_ready EMIT waits (R125, R128, R129). -/
def Obligations.TxOffersObufAtKAndTransfersWhenReady : Prop :=
  ∀ (c : CycleIn) (s : State), s.phase = .tx →
    let offered : Pins := { rxPop := false, rxFlush := false, tx := some (s.obufAt s.k.toNat) }
    (c.txReady = false → controllerStep c s = { s with pins := offered }) ∧
    (c.txReady = true → s.k.toNat + 1 ≠ s.flen.toNat →
      controllerStep c s = { s with pins := offered, wire := s.wire ++ [s.obufAt s.k.toNat], k := s.k + 1#9 }) ∧
    (c.txReady = true → s.k.toNat + 1 = s.flen.toNat →
      controllerStep c s = { s with
        pins := offered, wire := s.wire ++ [s.obufAt s.k.toNat], outLen := s.flen
        result := .ok, windowFull := false, phase := .idle })

/-- In every TX cycle what has been transmitted followed by what is still to be transmitted stays the same: bytes go out in index
order, each exactly once, none skipped (R128). -/
def Obligations.TxSendsEachByteExactlyOnceInOrder : Prop :=
  ∀ (c : CycleIn) (s : State), s.phase = .tx → s.k.toNat < s.flen.toNat →
    (controllerStep c s).wire ++ (controllerStep c s).toSend = s.wire ++ s.toSend ∧
    ((controllerStep c s).phase = .tx → (controllerStep c s).k.toNat < (controllerStep c s).flen.toNat)

/-- EMIT, from the CMD write to its completion: whatever the transport's stalls, once it has been ready in as many cycles
as the frame has bytes, exactly the frame has been appended to the transmit stream, RESULT is OK, OUT_LEN is the frame's
length, and IBUF, IN_LEN, MSG, MSG_COUNT and CONSUMED are unchanged (R125, R128, R129, R131). The schedule of inputs and
ENC's one cycle are the model's form of the environment (log 2, log 5). -/
def Obligations.EmitTransmitsExactlyItsFrame : Prop :=
  ∀ (s : State) (g : BitVec 28) (cs : List CycleIn) (f : List Byte),
    s.cfg.legal = true → s.phase = .idle →
    encodePayload (s.ibufPrefix s.inLen.toNat) = .frame f →
    (∀ c ∈ cs, c.unattended) → f.length ≤ (cs.filter CycleIn.txReady).length →
    s.sched = { CycleIn.quiet with host := some (.cmd (g ++ 2#4)) } :: CycleIn.quiet :: CycleIn.quiet :: cs →
    ∃ t, runsTo (3 + cs.length) s t ∧ t.phase = .idle ∧ t.wire = s.wire ++ f ∧ t.result = .ok ∧
      t.windowFull = false ∧ t.outLen.toNat = f.length ∧ t.obufPrefix f.length = f ∧
      t.ibuf = s.ibuf ∧ t.inLen = s.inLen ∧ t.msg = s.msg ∧ t.msgCount = s.msgCount ∧ t.consumed = s.consumed

/-! ### The scanner -/

/-- Round trip: every payload of at most 254 bytes other than [0A] decodes from its own frame as the one message, and the unframed
[0A] decodes to no message (R167). -/
def Obligations.DecodeAllRoundTrip : Prop :=
  (∀ p f : List Byte, p.length ≤ 254 → p ≠ [0x0A#8] → encodePayload p = .frame f →
    decodeAll f = { msgs := [p], consumed := p.length + 3, descs := [(2, p.length)] }) ∧
  ∀ f : List Byte, encodePayload [0x0A#8] = .frame f → decodeAll f = { msgs := [], consumed := 0, descs := [] }

/-- Concatenation: a frame before any bytes R decodes to its payload followed by the messages of R, shifted by the frame's length
(R168). -/
def Obligations.DecodeAllOfFrameThenRest : Prop :=
  ∀ p f r : List Byte, p.length ≤ 254 → p ≠ [0x0A#8] → encodePayload p = .frame f →
    decodeAll (f ++ r) =
      { msgs := p :: (decodeAll r).msgs
        descs := (2, p.length) :: (decodeAll r).descs.map fun d => (d.1 + f.length, d.2)
        consumed := if (decodeAll r).msgs = [] then f.length else f.length + (decodeAll r).consumed }

/-- A first byte that is not the header, or that is a header whose candidate fails pass 1, changes nothing but the
offsets: decode_all goes on one byte later, with no trace of the first byte in the result (R169, R155). -/
def Obligations.DecodeAllSkipsANonHeaderByte : Prop :=
  ∀ (x : Byte) (r : List Byte),
    let b := x :: r
    let l := (byteAt b 1).toNat
    x ≠ 0xAA#8 ∨ ¬(l + 1 < b.length ∧ byteAt b (l + 1) = 0x0A#8) →
    decodeAll (x :: r) =
      { msgs := (decodeAll r).msgs
        descs := (decodeAll r).descs.map fun d => (d.1 + 1, d.2)
        consumed := if (decodeAll r).consumed = 0 then 0 else (decodeAll r).consumed + 1 }

/-- Every collected candidate is a frame of the buffer, the frames are disjoint and in increasing order, `consumed` is 0 or the end of
the last one and at most N, and there are at most N / 3 of them (R166(a) to (c), R165). -/
def Obligations.CollectedFramesAreDisjointFramesInOrder : Prop :=
  ∀ b : List Byte,
    (∀ c ∈ collectFrames b b.length 0, byteAt b c.1 = 0xAA#8 ∧ (byteAt b (c.1 + 1)).toNat = c.2 ∧ 1 ≤ c.2 ∧
      c.1 + c.2 + 1 < b.length ∧ byteAt b (c.1 + c.2 + 1) = 0x0A#8) ∧
    (collectFrames b b.length 0).Pairwise (fun c d => c.1 + c.2 + 2 ≤ d.1) ∧
    (decodeAll b).consumed = ((collectFrames b b.length 0).getLast?.elim 0 fun c => c.1 + c.2 + 2) ∧
    (decodeAll b).consumed ≤ b.length ∧ 3 * (decodeAll b).descs.length ≤ b.length

/-- Pass 2 drops no candidate that pass 1 collected (R156). -/
def Obligations.PassTwoDropsNothing : Prop :=
  ∀ b : List Byte, (collectFrames b b.length 0).filter (lengthConsistent b) = collectFrames b b.length 0

/-- A proper prefix of a frame decodes to no message when the payload contains no 0xAA and the length byte is not 0xAA (R172(a)). -/
def Obligations.TruncatedFrameYieldsNoMessage : Prop :=
  ∀ (p f : List Byte) (k : Nat), p.length ≤ 254 → p ≠ [0x0A#8] → encodePayload p = .frame f → k < f.length →
    0xAA#8 ∉ p → p.length + 1 ≠ 0xAA →
    decodeAll (f.take k) = { msgs := [], consumed := 0, descs := [] }

/-- The SCAN phase computes `decode_all`: from its entry over len bytes of IBUF, max(len - 1, 1) steps of the
reference loop, or any larger number, leave in MSG_COUNT, CONSUMED and MSG[0 .. MSG_COUNT) what `decode_all` of those
bytes gives, each descriptor's fields in their bits and each message the bytes its descriptor points to, MSG above
unchanged, the operation completed with its code (DECODE: OK; RECEIVE: NO_RESPONSE when there is no message), and
nothing else changed (R100, R101, R150, R162, R163, R164, R199). -/
def Obligations.ScanPhaseComputesDecodeAll : Prop :=
  ∀ (s : State) (k : Nat), s.cfg.legal = true → s.phase = .scan →
    s.q = 0#17 → s.n = 0#16 → s.last = 0#17 → s.len.toNat ≤ s.cfg.ibufBytes → max (s.len.toNat - 1) 1 ≤ k →
    let t := scanSteps k s
    let d := decodeAll (s.ibufPrefix s.len.toNat)
    t.phase = .idle ∧ t.reports d ∧
    (∀ i, d.descs.length ≤ i → t.msgAt i = s.msgAt i) ∧
    (s.op ≠ .receive → t.result = .ok ∧ t.windowFull = false ∧ t.inLen = s.inLen) ∧
    (s.op = .receive → t.result = (if d.descs = [] then .noResponse else .ok) ∧ t.windowFull = s.full ∧
      t.inLen = s.wlen) ∧
    t = { s with
      phase := t.phase, msgCount := t.msgCount, consumed := t.consumed, msg := t.msg, result := t.result
      windowFull := t.windowFull, inLen := t.inLen, q := t.q, n := t.n, last := t.last }

/-- However the steps of a scan are spread over cycles, it ends in the same state: two runs of unattended cycles whose
work is enough both complete, and what they leave differs only in the bytes that arrived at the transport, which stay
there (R162, R320). Work, the number of steps in a cycle, is the model's input (log 5), and the schedule of cycles its
form of the environment (log 2). -/
def Obligations.ScanIsIndependentOfItsCycleCount : Prop :=
  ∀ (s : State) (cs ds : List CycleIn), s.cfg.legal = true → s.phase = .scan → s.q.toNat ≤ s.len.toNat →
    (∀ c ∈ cs, c.unattended) → (∀ c ∈ ds, c.unattended) →
    s.len.toNat - s.q.toNat + 1 ≤ (cs.map CycleIn.work).sum →
    s.len.toNat - s.q.toNat + 1 ≤ (ds.map CycleIn.work).sum →
    ∃ t u, runsTo cs.length { s with sched := cs } t ∧ runsTo ds.length { s with sched := ds } u ∧ t.phase = .idle ∧
      t.rxFifo = s.rxFifo ++ cs.flatMap CycleIn.arrive ∧ u.rxFifo = s.rxFifo ++ ds.flatMap CycleIn.arrive ∧
      u = { t with rxFifo := u.rxFifo }

/-- A scan with its cursor inside the buffer finishes within len - q + 1 further steps (R164). -/
def Obligations.ScanFinishesWithinItsBuffer : Prop :=
  ∀ (s : State) (k : Nat), s.phase = .scan → s.q.toNat ≤ s.len.toNat → s.len.toNat - s.q.toNat + 1 ≤ k →
    (scanSteps k s).phase = .idle

/-- DECODE, from the CMD write to its completion, at any rate of work: RESULT is OK, MSG_COUNT, CONSUMED and MSG[0 ..
MSG_COUNT) report what `decode_all` gives for IBUF[0 .. IN_LEN), each descriptor's fields in their bits and each
message the bytes its descriptor points to, and OBUF, OUT_LEN, IN_LEN, IBUF and the transmit stream are unchanged
(R100, R101, R150, R163, R170). The schedule of inputs and the work of a cycle are the model's form of the environment
(log 2, log 5). -/
def Obligations.DecodeReportsDecodeAllOfIbuf : Prop :=
  ∀ (s : State) (g : BitVec 28) (cs : List CycleIn),
    s.Inv → s.phase = .idle → (∀ c ∈ cs, c.unattended) →
    max (s.inLen.toNat - 1) 1 ≤ (cs.map CycleIn.work).sum →
    s.sched = { CycleIn.quiet with host := some (.cmd (g ++ 3#4)) } :: cs →
    ∃ t, runsTo (1 + cs.length) s t ∧ t.phase = .idle ∧ t.result = .ok ∧ t.windowFull = false ∧
      t.reports (decodeAll (s.ibufPrefix s.inLen.toNat)) ∧
      t.ibuf = s.ibuf ∧ t.inLen = s.inLen ∧ t.obuf = s.obuf ∧ t.outLen = s.outLen ∧ t.wire = s.wire

/-! ### The receiver -/

/-- An ARM cycle: a byte that is available is taken first and DRAIN follows; otherwise the deadline L ends the window
empty; otherwise a tick is counted; otherwise nothing moves (R193, R196). -/
def Obligations.ArmPollsThenTestsTheDeadlineThenTicks : Prop :=
  ∀ (c : CycleIn) (s : State), s.phase = .arm →
    (∀ b rest, s.rxFifo = b :: rest →
      controllerStep c s = { s with
        ibuf := s.ibuf.write 0 b, rxFifo := rest, wlen := 1#16, idle := 0#17, phase := .drain
        pins := { rxPop := true, rxFlush := false, tx := none } }) ∧
    (s.rxFifo = [] → s.latencyMs.toNat ≤ s.elapsed.toNat →
      controllerStep c s = { s with phase := .scan, len := 0#16, q := 0#17, n := 0#16, last := 0#17 }) ∧
    (s.rxFifo = [] → s.elapsed.toNat < s.latencyMs.toNat → c.tick = true →
      controllerStep c s = { s with elapsed := s.elapsed + 1#17 }) ∧
    (s.rxFifo = [] → s.elapsed.toNat < s.latencyMs.toNat → c.tick = false → controllerStep c s = s)

/-- A DRAIN cycle: an available byte is taken while the window has room; found with the window full it stays in the transport and ends
the window with full = 1; without one, silence beyond T ends the window, and otherwise a tick is counted (R194, R197, R198). -/
def Obligations.DrainPollsThenTestsSilenceThenTicks : Prop :=
  ∀ (c : CycleIn) (s : State), s.phase = .drain →
    (∀ b rest, s.rxFifo = b :: rest → s.wlen.toNat < s.cfg.ibufBytes →
      controllerStep c s = { s with
        ibuf := s.ibuf.write s.wlen.toNat b, rxFifo := rest, wlen := s.wlen + 1#16, idle := 0#17
        pins := { rxPop := true, rxFlush := false, tx := none } }) ∧
    (s.rxFifo ≠ [] → s.cfg.ibufBytes ≤ s.wlen.toNat →
      controllerStep c s = { s with
        full := true, phase := .scan, len := s.wlen, q := 0#17, n := 0#16, last := 0#17 }) ∧
    (s.rxFifo = [] → s.timeoutMs.toNat < s.idle.toNat →
      controllerStep c s = { s with phase := .scan, len := s.wlen, q := 0#17, n := 0#16, last := 0#17 }) ∧
    (s.rxFifo = [] → s.idle.toNat ≤ s.timeoutMs.toNat → c.tick = true →
      controllerStep c s = { s with idle := s.idle + 1#17 }) ∧
    (s.rxFifo = [] → s.idle.toNat ≤ s.timeoutMs.toNat → c.tick = false → controllerStep c s = s)

/-- In every ARM and DRAIN cycle the window followed by what the transport still holds stays the same, and IBUF at and above the window's
end keeps its contents: nothing is reordered, duplicated or dropped (R195, R202). -/
def Obligations.WindowIsAPrefixOfTheReceivedStream : Prop :=
  ∀ (c : CycleIn) (s : State), s.Inv → s.phase = .arm ∨ s.phase = .drain →
    (controllerStep c s).window ++ (controllerStep c s).rxFifo = s.window ++ s.rxFifo ∧
    ∀ j, (controllerStep c s).wlen.toNat ≤ j → (controllerStep c s).ibufAt j = s.ibufAt j

/-- RECEIVE of k bytes the transport holds when it starts, 1 to IBUF_BYTES of them, with a tick in every cycle after the
CMD write's and no further byte: k + T + 2 cycles later the operation is in SCAN, and the window is exactly those bytes,
whatever L is (R202). The schedule of inputs is the model's form of the environment (log 2). -/
def Obligations.ReceiveTakesExactlyThePreloadedBytes : Prop :=
  ∀ (s : State) (g : BitVec 28), s.cfg.legal = true → s.cfg.rxPresent = true → s.phase = .idle →
    s.rxFifo ≠ [] → s.rxFifo.length ≤ s.cfg.ibufBytes →
    s.sched = { CycleIn.quiet with host := some (.cmd (g ++ 4#4)) } ::
      List.replicate (s.rxFifo.length + s.timeoutMs.toNat + 2) { CycleIn.quiet with tick := true } →
    ∃ t, runsTo (1 + (s.rxFifo.length + s.timeoutMs.toNat + 2)) s t ∧ t.phase = .scan ∧ t.op = .receive ∧
      t.window = s.rxFifo ∧ t.wlen.toNat = s.rxFifo.length ∧ t.len = t.wlen ∧ t.full = false ∧ t.rxFifo = [] ∧
      t.wire = s.wire ∧ t.obuf = s.obuf

/-- RECEIVE with nothing arriving and a tick in every cycle after the CMD write's: L + 2 cycles later, the last one
SCAN's, it has completed, whatever T is, with RESULT NO_RESPONSE, IN_LEN = 0, MSG_COUNT = 0 and CONSUMED = 0, and has
written nothing to IBUF, MSG or the wire (R193, R199, R204). The schedule of inputs, and SCAN's one cycle in it, are
the model's form of the environment (log 2, log 5). -/
def Obligations.ReceiveOfSilenceReportsNoResponse : Prop :=
  ∀ (s : State) (g : BitVec 28), s.cfg.legal = true → s.cfg.rxPresent = true → s.phase = .idle → s.rxFifo = [] →
    s.sched = { CycleIn.quiet with host := some (.cmd (g ++ 4#4)) } ::
      List.replicate (s.latencyMs.toNat + 2) { CycleIn.quiet with tick := true } →
    ∃ t, runsTo (1 + (s.latencyMs.toNat + 2)) s t ∧ t.phase = .idle ∧ t.result = .noResponse ∧
      t.windowFull = false ∧ t.inLen = 0#16 ∧ t.msgCount = 0#16 ∧ t.consumed = 0#16 ∧
      t.receiveOutcome = .nothing ∧ t.ibuf = s.ibuf ∧ t.msg = s.msg ∧ t.wire = s.wire

/-- RECEIVE's completing cycle writes IN_LEN, MSG_COUNT, CONSUMED, RESULT and WINDOW_FULL at once and nothing else
(R199). That a cycle has work is the model's input (log 5). That MSG is not written in this cycle (log 17), and that
CONSUMED takes the low 16 bits of last (log 16), are the model's. -/
def Obligations.ReceiveCompletionReportsTheWindow : Prop :=
  ∀ (c : CycleIn) (s : State), s.phase = .scan → s.op = .receive → c.work ≠ 0 → s.len.toNat < s.q.toNat + 3 →
    controllerStep c s = { s with
      inLen := s.wlen, msgCount := s.n, consumed := s.last.setWidth 16, windowFull := s.full
      result := if s.n = 0#16 then .noResponse else .ok, phase := .idle }

/-! ### The whole machine -/

/-- A step without reset after which an operation is in progress changes none of OUT_LEN, MSG_COUNT, CONSUMED, IN_LEN, RESULT and
WINDOW_FULL: an operation writes them only when it completes (R48, R239). -/
def Obligations.ResultRegistersChangeOnlyAtCompletion : Prop :=
  ∀ s t : State, step s = .next t → s.nextCycle.rst = false → t.phase ≠ .idle →
    t.outLen = s.outLen ∧ t.msgCount = s.msgCount ∧ t.consumed = s.consumed ∧ t.inLen = s.inLen ∧
    t.result = s.result ∧ t.windowFull = s.windowFull

/-- While an operation runs its inputs stay fixed: LATENCY_MS, TIMEOUT_MS and the latched opcode never change, IN_LEN only when a RECEIVE
completes, IBUF only in ARM and DRAIN cycles (R74, R231). -/
def Obligations.OperationInputsAreFixedWhileBusy : Prop :=
  ∀ s t : State, step s = .next t → s.nextCycle.rst = false → s.phase ≠ .idle →
    t.latencyMs = s.latencyMs ∧ t.timeoutMs = s.timeoutMs ∧ t.op = s.op ∧
    (t.inLen = s.inLen ∨ s.op = .receive ∧ s.phase = .scan ∧ t.phase = .idle) ∧
    (t.ibuf = s.ibuf ∨ s.phase = .arm ∨ s.phase = .drain)

/-- A byte joins the transmit stream only in a TX cycle with tx_ready = 1, one byte at a time, and it is the byte offered; no step,
a reset included, takes one back (R288, R301). -/
def Obligations.TransmitStreamGrowsOnlyInTx : Prop :=
  ∀ s t : State, step s = .next t →
    t.wire = s.wire ∨
    (s.phase = .tx ∧ s.nextCycle.rst = false ∧ s.nextCycle.txReady = true ∧
      t.pins.tx = some (s.obufAt s.k.toNat) ∧ t.wire = s.wire ++ [s.obufAt s.k.toNat])

/-- The transport's input, arrivals of the cycle included, is left alone but for two cases: an EMIT's FLUSH discards all of it with
rx_flush asserted, and a RECEIVE's ARM or DRAIN cycle takes its oldest byte with rx_pop asserted; a reset leaves it alone (R131, R207,
R285, R287, R302). -/
def Obligations.TransportInputIsOnlyPoppedOrFlushed : Prop :=
  ∀ s t : State, step s = .next t →
    (t.rxFifo = s.rxFifo ++ s.nextCycle.arrive ∧ t.pins.rxPop = false ∧ t.pins.rxFlush = false) ∨
    (s.phase = .flush ∧ s.nextCycle.rst = false ∧ t.rxFifo = [] ∧ t.pins.rxFlush = true ∧ t.pins.rxPop = false) ∨
    ((s.phase = .arm ∨ s.phase = .drain) ∧ s.nextCycle.rst = false ∧ t.pins.rxPop = true ∧
      t.pins.rxFlush = false ∧ ∃ b, s.rxFifo ++ s.nextCycle.arrive = b :: t.rxFifo)

/-- OVERRUN is sticky: a step from OVERRUN = 1 to OVERRUN = 0 is a reset cycle or runs a write to STATUS with bit 9 set (R23, R316). -/
def Obligations.OverrunIsClearedOnlyByW1cOrReset : Prop :=
  ∀ s t : State, step s = .next t → s.overrun = true → t.overrun = false →
    s.nextCycle.rst = true ∨
    ∃ r v, s.nextCycle.host = some r ∧ decode s.cfg.base r = .ok (.wrStatus v) ∧ v.getLsbD 9 = true

/-- A reset cycle without host access puts every state element to its reset value, drives no output, and leaves the
transport's bytes and what has been transmitted (R300, R301, R302). The epoch counter, by which the arrays' contents
become unspecified anew, is the model's (log 3). So are the latched opcode's reset value, ENCODE (log 8), and that the
bytes arriving in the cycle join the transport's (log 15). -/
def Obligations.ResetCycleRestoresEveryResetValue : Prop :=
  ∀ s : State, s.cfg.legal = true → s.nextCycle.rst = true → s.nextCycle.host = none →
    step s = .next { State.reset with
      cfg := s.cfg, rxFifo := s.rxFifo ++ s.nextCycle.arrive, wire := s.wire, sched := s.sched.tail
      epoch := s.epoch + 1, draw := s.draw }

/-- In a reset cycle every host write is ignored and sets no OVERRUN, every register read returns the register's reset
value, a read of an array entry returns an unspecified value, and a read of a reserved offset or past an array returns
0 (R303, R65). The model's choices in it: each unspecified read draws a free value of its own (log 4), the reset comes
before the access and arriving bytes join the transport's (log 15), the latched opcode resets to ENCODE (log 8), the
arrays become unspecified anew by the epoch counter (log 3). -/
def Obligations.HostAccessInAResetCycle : Prop :=
  ∀ (s : State) (r : Request) (i : Instr), s.cfg.legal = true → s.nextCycle.rst = true →
    s.nextCycle.host = some r → decode s.cfg.base r = .ok i →
    let after : State := { State.reset with
      cfg := s.cfg, rxFifo := s.rxFifo ++ s.nextCycle.arrive, wire := s.wire, sched := s.sched.tail
      epoch := s.epoch + 1, draw := s.draw }
    (∀ (v : Word) (g : BitVec 28) (low : BitVec 3) (j : BitVec 16) (off : BitVec 19),
      i ∈ [Instr.encode g, .emit g, .decode g, .receive g, .rsvd0 g, .rsvd5 g, .rsvd6 g, .rsvd7 g, .rsvd8F low g,
        .wrCmd v, .wrStatus v, .wrLatencyMs v, .wrTimeoutMs v, .wrInLen v, .wrIbuf j v, .wrIgnored off v] →
      step s = .next after) ∧
    (∀ p ∈ [(Instr.rdId, 0x46430007#32), (.rdCaps, if s.cfg.rxPresent then 1#32 else 0#32),
        (.rdIbufSize, BitVec.ofNat 32 s.cfg.ibufBytes), (.rdCmd, 0#32), (.rdStatus, 0#32), (.rdLatencyMs, 50#32),
        (.rdTimeoutMs, 10#32), (.rdInLen, 0#32), (.rdOutLen, 0#32), (.rdMsgCount, 0#32), (.rdConsumed, 0#32)],
      i = p.1 → step s = .next { after with rdata := some p.2 }) ∧
    ((∃ j, i = .rdObuf j ∧ j.toNat ≤ 256) ∨ (∃ j, i = .rdMsg j ∧ j.toNat < s.cfg.ibufBytes / 3) ∨
        (∃ j, i = .rdIbuf j ∧ j.toNat < s.cfg.ibufBytes) →
      step s = .next { after with rdata := some (Config.unspecifiedRead s.draw), draw := s.draw + 1 }) ∧
    ((∃ off, i = .rdReserved off) ∨ (∃ j, i = .rdObuf j ∧ 257 ≤ j.toNat) ∨
        (∃ j, i = .rdMsg j ∧ s.cfg.ibufBytes / 3 ≤ j.toNat) ∨ (∃ j, i = .rdIbuf j ∧ s.cfg.ibufBytes ≤ j.toNat) →
      step s = .next { after with rdata := some 0#32 })

/-- The state after reset holds the values of R47: STATUS reads 0, LATENCY_MS 50, TIMEOUT_MS 10, every length, count and internal counter
0, PHASE IDLE, and nothing is written in IBUF, OBUF or MSG (R47, R300). -/
def Obligations.ResetStateHoldsTheResetValues : Prop :=
  let s := State.reset
  s.statusWord = 0#32 ∧ s.latencyMs = 50#16 ∧ s.timeoutMs = 10#16 ∧ s.inLen = 0#16 ∧ s.outLen = 0#9 ∧
  s.msgCount = 0#16 ∧ s.consumed = 0#16 ∧ s.phase = .idle ∧ s.q = 0#17 ∧ s.n = 0#16 ∧ s.last = 0#17 ∧
  s.len = 0#16 ∧ s.elapsed = 0#17 ∧ s.idle = 0#17 ∧ s.wlen = 0#16 ∧ s.full = false ∧ s.flen = 0#9 ∧ s.k = 0#9 ∧
  ∀ i, s.ibuf.read i = none ∧ s.obuf.read i = none ∧ s.msg.read i = none

/-- The state after reset, at the default parameters (BASE = 0 is the model's choice, log 1), meets the invariant. -/
def Obligations.ResetStateMeetsTheInvariant : Prop := State.reset.Inv

/-- Every step keeps the invariant: the arrays stay in canonical form and inside their bounds, IN_LEN, OUT_LEN, MSG_COUNT and CONSUMED stay in
range, the scan cursor stays inside the buffer with three bytes for each frame found, and each phase runs for its own operation (R27,
R28, R29, R33, R160, R164, R165). -/
def Obligations.EveryStepKeepsTheInvariant : Prop :=
  ∀ s t : State, s.Inv → step s = .next t → t.Inv

/-- No step changes the build parameters (R7). -/
def Obligations.NoStepChangesTheParameters : Prop :=
  ∀ s t : State, step s = .next t → t.cfg = s.cfg
end

