-- ==== Sys2Proof/Laws/Memory.lean ====
section
/-!
SUPPORT. Laws of the storage arrays: a read after a write, the canonical form, and the bound on the indices.
-/

namespace Sys2Proof.Machine

variable {α : Type}

@[simp] theorem Memory.read_nil (i : Nat) : Memory.read ([] : Memory α) i = none := rfl

/-- A read after a write to the same index gives the value written. -/
@[simp] theorem Memory.read_write_same (m : Memory α) (i : Nat) (v : α) : (m.write i v).read i = some v := by
  induction m with
  | nil => simp [Memory.write, Memory.read]
  | cons a rest ih =>
    unfold Memory.write
    split_ifs with h1 h2
    · simp [Memory.read]
    · simp [Memory.read]
    · simp [Memory.read, h2, ih]

/-- A write leaves every other index alone. -/
theorem Memory.read_write_other (m : Memory α) {i j : Nat} (v : α) (h : j ≠ i) :
    (m.write i v).read j = m.read j := by
  induction m with
  | nil => simp [Memory.write, Memory.read, Ne.symm h]
  | cons a rest ih =>
    unfold Memory.write
    split_ifs with h1 h2
    · simp [Memory.read, Ne.symm h]
    · have h3 : a.1 ≠ j := by omega
      simp [Memory.read, Ne.symm h, h3]
    · simp [Memory.read, ih]

/-- A list of entries is canonical exactly when its first entry has no larger index and the rest is canonical. -/
theorem Memory.wf_cons (a : Nat × α) (m : Memory α) :
    Memory.wf (a :: m) = true ↔ (∀ b ∈ m.head?, a.1 < b.1) ∧ Memory.wf m = true := by
  cases m with
  | nil => simp [Memory.wf]
  | cons b rest => simp [Memory.wf]

/-- The first index after a write is the written one or the first one before. -/
theorem Memory.head_write (m : Memory α) (i : Nat) (v : α) (b : Nat × α) (h : b ∈ (m.write i v).head?) :
    b.1 = i ∨ ∃ c ∈ m.head?, c.1 = b.1 := by
  cases m with
  | nil => simp [Memory.write] at h; simp [← h]
  | cons a rest =>
    unfold Memory.write at h
    split_ifs at h
    · simp at h; simp [← h]
    · simp at h; simp [← h]
    · simp at h; right; exact ⟨a, by simp, by rw [h]⟩

/-- A write keeps the canonical form. -/
theorem Memory.wf_write (m : Memory α) (i : Nat) (v : α) (h : m.wf = true) : (m.write i v).wf = true := by
  induction m with
  | nil => simp [Memory.write, Memory.wf]
  | cons a rest ih =>
    obtain ⟨hhead, hrest⟩ := (Memory.wf_cons a rest).1 h
    unfold Memory.write
    split_ifs with h1 h2
    · rw [Memory.wf_cons]
      exact ⟨by simpa using h1, h⟩
    · rw [Memory.wf_cons]
      exact ⟨fun b hb => by have := hhead b hb; simpa [← h2] using this, hrest⟩
    · rw [Memory.wf_cons]
      refine ⟨fun b hb => ?_, ih hrest⟩
      rcases Memory.head_write rest i v b hb with hb' | ⟨c, hc, hcb⟩
      · omega
      · have := hhead c hc; omega

/-- A write below a bound keeps every index below it. -/
theorem Memory.below_write (m : Memory α) (i : Nat) (v : α) (bound : Nat) (h : m.below bound = true)
    (hi : i < bound) : (m.write i v).below bound = true := by
  induction m with
  | nil => simp [Memory.write, Memory.below, hi]
  | cons a rest ih =>
    simp only [Memory.below, List.all_cons, Bool.and_eq_true, decide_eq_true_eq] at h ih ⊢
    unfold Memory.write
    split_ifs with h1 h2
    · simp [hi, h]
    · simp [hi, h.2]
    · simp [h.1, ih h.2]

/-- Writing consecutive entries keeps the canonical form. -/
theorem Memory.wf_writeList (vs : List α) (m : Memory α) (i : Nat) (h : m.wf = true) :
    (m.writeList i vs).wf = true := by
  induction vs generalizing m i with
  | nil => exact h
  | cons v vs ih => exact ih _ _ (Memory.wf_write m i v h)

/-- Writing consecutive entries below a bound keeps every index below it. -/
theorem Memory.below_writeList (vs : List α) (m : Memory α) (i bound : Nat) (h : m.below bound = true)
    (hi : i + vs.length ≤ bound) : (m.writeList i vs).below bound = true := by
  induction vs generalizing m i with
  | nil => exact h
  | cons v vs ih =>
    simp only [List.length_cons] at hi
    exact ih _ _ (Memory.below_write m i v bound h (by omega)) (by omega)

/-- What an index reads after consecutive entries were written from `i` on: the entry written there, or as before. -/
theorem Memory.read_writeList (vs : List α) (m : Memory α) (i j : Nat) :
    (m.writeList i vs).read j =
      if h : i ≤ j ∧ j - i < vs.length then some (vs[j - i]'h.2) else m.read j := by
  induction vs generalizing m i with
  | nil => simp [Memory.writeList]
  | cons v vs ih =>
    rw [Memory.writeList, ih]
    by_cases hji : j = i
    · subst hji; simp
    · by_cases hin : i + 1 ≤ j ∧ j - (i + 1) < vs.length
      · have h2 : i ≤ j ∧ j - i < (v :: vs).length := by simp; omega
        have h3 : j - i = (j - (i + 1)) + 1 := by omega
        simp only [dif_pos hin, dif_pos h2]
        simp [h3]
      · have h2 : ¬(i ≤ j ∧ j - i < (v :: vs).length) := by simp; omega
        rw [dif_neg hin, dif_neg h2, Memory.read_write_other _ _ hji]

/-- The state right after reset has every array in canonical form. -/
theorem reset_arrays_wf : State.reset.ibuf.wf = true ∧ State.reset.obuf.wf = true ∧ State.reset.msg.wf = true :=
  ⟨rfl, rfl, rfl⟩

/-- IBUF after one byte was written. -/
theorem ibufAt_write (s : State) (i j : Nat) (b : Byte) :
    State.ibufAt { s with ibuf := s.ibuf.write i b } j = if j = i then b else s.ibufAt j := by
  unfold State.ibufAt
  split_ifs with h
  · subst h; simp
  · simp only [Memory.read_write_other _ _ h]

/-- MSG after one descriptor was written. -/
theorem msgAt_write (s : State) (i j : Nat) (d : Word) :
    State.msgAt { s with msg := s.msg.write i d } j = if j = i then d else s.msgAt j := by
  unfold State.msgAt
  split_ifs with h
  · subst h; simp
  · simp only [Memory.read_write_other _ _ h]

/-- OBUF after a frame was written from index 0 on. -/
theorem obufAt_writeList (s : State) (f : List Byte) (j : Nat) :
    State.obufAt { s with obuf := s.obuf.writeList 0 f } j = if h : j < f.length then f[j] else s.obufAt j := by
  unfold State.obufAt
  rw [Memory.read_writeList]
  by_cases h : j < f.length
  · simp [h]
  · simp [h]

end Sys2Proof.Machine
end

