-- ==== Sys2Proof/Laws/State.lean ====
section
/-!
SUPPORT. The small lemmas of the record updates: one per field per update, so that no later proof unfolds an update.
-/

namespace Sys2Proof.Machine

/-! ### `State.respond` -/

@[simp] theorem respond_cfg (s : State) (v : Word) : (s.respond v).cfg = s.cfg := rfl
@[simp] theorem respond_result (s : State) (v : Word) : (s.respond v).result = s.result := rfl
@[simp] theorem respond_windowFull (s : State) (v : Word) : (s.respond v).windowFull = s.windowFull := rfl
@[simp] theorem respond_overrun (s : State) (v : Word) : (s.respond v).overrun = s.overrun := rfl
@[simp] theorem respond_latencyMs (s : State) (v : Word) : (s.respond v).latencyMs = s.latencyMs := rfl
@[simp] theorem respond_timeoutMs (s : State) (v : Word) : (s.respond v).timeoutMs = s.timeoutMs := rfl
@[simp] theorem respond_inLen (s : State) (v : Word) : (s.respond v).inLen = s.inLen := rfl
@[simp] theorem respond_outLen (s : State) (v : Word) : (s.respond v).outLen = s.outLen := rfl
@[simp] theorem respond_msgCount (s : State) (v : Word) : (s.respond v).msgCount = s.msgCount := rfl
@[simp] theorem respond_consumed (s : State) (v : Word) : (s.respond v).consumed = s.consumed := rfl
@[simp] theorem respond_phase (s : State) (v : Word) : (s.respond v).phase = s.phase := rfl
@[simp] theorem respond_op (s : State) (v : Word) : (s.respond v).op = s.op := rfl
@[simp] theorem respond_q (s : State) (v : Word) : (s.respond v).q = s.q := rfl
@[simp] theorem respond_n (s : State) (v : Word) : (s.respond v).n = s.n := rfl
@[simp] theorem respond_last (s : State) (v : Word) : (s.respond v).last = s.last := rfl
@[simp] theorem respond_len (s : State) (v : Word) : (s.respond v).len = s.len := rfl
@[simp] theorem respond_elapsed (s : State) (v : Word) : (s.respond v).elapsed = s.elapsed := rfl
@[simp] theorem respond_idle (s : State) (v : Word) : (s.respond v).idle = s.idle := rfl
@[simp] theorem respond_wlen (s : State) (v : Word) : (s.respond v).wlen = s.wlen := rfl
@[simp] theorem respond_full (s : State) (v : Word) : (s.respond v).full = s.full := rfl
@[simp] theorem respond_flen (s : State) (v : Word) : (s.respond v).flen = s.flen := rfl
@[simp] theorem respond_k (s : State) (v : Word) : (s.respond v).k = s.k := rfl
@[simp] theorem respond_ibuf (s : State) (v : Word) : (s.respond v).ibuf = s.ibuf := rfl
@[simp] theorem respond_obuf (s : State) (v : Word) : (s.respond v).obuf = s.obuf := rfl
@[simp] theorem respond_msg (s : State) (v : Word) : (s.respond v).msg = s.msg := rfl
@[simp] theorem respond_rxFifo (s : State) (v : Word) : (s.respond v).rxFifo = s.rxFifo := rfl
@[simp] theorem respond_wire (s : State) (v : Word) : (s.respond v).wire = s.wire := rfl
@[simp] theorem respond_pins (s : State) (v : Word) : (s.respond v).pins = s.pins := rfl
@[simp] theorem respond_rdata (s : State) (v : Word) : (s.respond v).rdata = some v := rfl
@[simp] theorem respond_sched (s : State) (v : Word) : (s.respond v).sched = s.sched := rfl
@[simp] theorem respond_epoch (s : State) (v : Word) : (s.respond v).epoch = s.epoch := rfl
@[simp] theorem respond_draw (s : State) (v : Word) : (s.respond v).draw = s.draw := rfl

/-! ### `State.respondFree` -/

@[simp] theorem respondFree_cfg (s : State) : s.respondFree.cfg = s.cfg := rfl
@[simp] theorem respondFree_result (s : State) : s.respondFree.result = s.result := rfl
@[simp] theorem respondFree_windowFull (s : State) : s.respondFree.windowFull = s.windowFull := rfl
@[simp] theorem respondFree_overrun (s : State) : s.respondFree.overrun = s.overrun := rfl
@[simp] theorem respondFree_latencyMs (s : State) : s.respondFree.latencyMs = s.latencyMs := rfl
@[simp] theorem respondFree_timeoutMs (s : State) : s.respondFree.timeoutMs = s.timeoutMs := rfl
@[simp] theorem respondFree_inLen (s : State) : s.respondFree.inLen = s.inLen := rfl
@[simp] theorem respondFree_outLen (s : State) : s.respondFree.outLen = s.outLen := rfl
@[simp] theorem respondFree_msgCount (s : State) : s.respondFree.msgCount = s.msgCount := rfl
@[simp] theorem respondFree_consumed (s : State) : s.respondFree.consumed = s.consumed := rfl
@[simp] theorem respondFree_phase (s : State) : s.respondFree.phase = s.phase := rfl
@[simp] theorem respondFree_op (s : State) : s.respondFree.op = s.op := rfl
@[simp] theorem respondFree_q (s : State) : s.respondFree.q = s.q := rfl
@[simp] theorem respondFree_n (s : State) : s.respondFree.n = s.n := rfl
@[simp] theorem respondFree_last (s : State) : s.respondFree.last = s.last := rfl
@[simp] theorem respondFree_len (s : State) : s.respondFree.len = s.len := rfl
@[simp] theorem respondFree_elapsed (s : State) : s.respondFree.elapsed = s.elapsed := rfl
@[simp] theorem respondFree_idle (s : State) : s.respondFree.idle = s.idle := rfl
@[simp] theorem respondFree_wlen (s : State) : s.respondFree.wlen = s.wlen := rfl
@[simp] theorem respondFree_full (s : State) : s.respondFree.full = s.full := rfl
@[simp] theorem respondFree_flen (s : State) : s.respondFree.flen = s.flen := rfl
@[simp] theorem respondFree_k (s : State) : s.respondFree.k = s.k := rfl
@[simp] theorem respondFree_ibuf (s : State) : s.respondFree.ibuf = s.ibuf := rfl
@[simp] theorem respondFree_obuf (s : State) : s.respondFree.obuf = s.obuf := rfl
@[simp] theorem respondFree_msg (s : State) : s.respondFree.msg = s.msg := rfl
@[simp] theorem respondFree_rxFifo (s : State) : s.respondFree.rxFifo = s.rxFifo := rfl
@[simp] theorem respondFree_wire (s : State) : s.respondFree.wire = s.wire := rfl
@[simp] theorem respondFree_pins (s : State) : s.respondFree.pins = s.pins := rfl
@[simp] theorem respondFree_rdata (s : State) : s.respondFree.rdata = some (Config.unspecifiedRead s.draw) := rfl
@[simp] theorem respondFree_sched (s : State) : s.respondFree.sched = s.sched := rfl
@[simp] theorem respondFree_epoch (s : State) : s.respondFree.epoch = s.epoch := rfl
@[simp] theorem respondFree_draw (s : State) : s.respondFree.draw = s.draw + 1 := rfl

/-! ### `State.complete` -/

@[simp] theorem complete_cfg (s : State) (code : Result) (w : Bool) : (s.complete code w).cfg = s.cfg := rfl
@[simp] theorem complete_result (s : State) (code : Result) (w : Bool) : (s.complete code w).result = code := rfl
@[simp] theorem complete_windowFull (s : State) (code : Result) (w : Bool) : (s.complete code w).windowFull = w := rfl
@[simp] theorem complete_overrun (s : State) (code : Result) (w : Bool) : (s.complete code w).overrun = s.overrun := rfl
@[simp] theorem complete_latencyMs (s : State) (code : Result) (w : Bool) : (s.complete code w).latencyMs = s.latencyMs := rfl
@[simp] theorem complete_timeoutMs (s : State) (code : Result) (w : Bool) : (s.complete code w).timeoutMs = s.timeoutMs := rfl
@[simp] theorem complete_inLen (s : State) (code : Result) (w : Bool) : (s.complete code w).inLen = s.inLen := rfl
@[simp] theorem complete_outLen (s : State) (code : Result) (w : Bool) : (s.complete code w).outLen = s.outLen := rfl
@[simp] theorem complete_msgCount (s : State) (code : Result) (w : Bool) : (s.complete code w).msgCount = s.msgCount := rfl
@[simp] theorem complete_consumed (s : State) (code : Result) (w : Bool) : (s.complete code w).consumed = s.consumed := rfl
@[simp] theorem complete_phase (s : State) (code : Result) (w : Bool) : (s.complete code w).phase = .idle := rfl
@[simp] theorem complete_op (s : State) (code : Result) (w : Bool) : (s.complete code w).op = s.op := rfl
@[simp] theorem complete_q (s : State) (code : Result) (w : Bool) : (s.complete code w).q = s.q := rfl
@[simp] theorem complete_n (s : State) (code : Result) (w : Bool) : (s.complete code w).n = s.n := rfl
@[simp] theorem complete_last (s : State) (code : Result) (w : Bool) : (s.complete code w).last = s.last := rfl
@[simp] theorem complete_len (s : State) (code : Result) (w : Bool) : (s.complete code w).len = s.len := rfl
@[simp] theorem complete_elapsed (s : State) (code : Result) (w : Bool) : (s.complete code w).elapsed = s.elapsed := rfl
@[simp] theorem complete_idle (s : State) (code : Result) (w : Bool) : (s.complete code w).idle = s.idle := rfl
@[simp] theorem complete_wlen (s : State) (code : Result) (w : Bool) : (s.complete code w).wlen = s.wlen := rfl
@[simp] theorem complete_full (s : State) (code : Result) (w : Bool) : (s.complete code w).full = s.full := rfl
@[simp] theorem complete_flen (s : State) (code : Result) (w : Bool) : (s.complete code w).flen = s.flen := rfl
@[simp] theorem complete_k (s : State) (code : Result) (w : Bool) : (s.complete code w).k = s.k := rfl
@[simp] theorem complete_ibuf (s : State) (code : Result) (w : Bool) : (s.complete code w).ibuf = s.ibuf := rfl
@[simp] theorem complete_obuf (s : State) (code : Result) (w : Bool) : (s.complete code w).obuf = s.obuf := rfl
@[simp] theorem complete_msg (s : State) (code : Result) (w : Bool) : (s.complete code w).msg = s.msg := rfl
@[simp] theorem complete_rxFifo (s : State) (code : Result) (w : Bool) : (s.complete code w).rxFifo = s.rxFifo := rfl
@[simp] theorem complete_wire (s : State) (code : Result) (w : Bool) : (s.complete code w).wire = s.wire := rfl
@[simp] theorem complete_pins (s : State) (code : Result) (w : Bool) : (s.complete code w).pins = s.pins := rfl
@[simp] theorem complete_rdata (s : State) (code : Result) (w : Bool) : (s.complete code w).rdata = s.rdata := rfl
@[simp] theorem complete_sched (s : State) (code : Result) (w : Bool) : (s.complete code w).sched = s.sched := rfl
@[simp] theorem complete_epoch (s : State) (code : Result) (w : Bool) : (s.complete code w).epoch = s.epoch := rfl
@[simp] theorem complete_draw (s : State) (code : Result) (w : Bool) : (s.complete code w).draw = s.draw := rfl

/-! ### `State.clearOverrun` -/

@[simp] theorem clearOverrun_cfg (s : State) (v : Word) : (s.clearOverrun v).cfg = s.cfg := rfl
@[simp] theorem clearOverrun_result (s : State) (v : Word) : (s.clearOverrun v).result = s.result := rfl
@[simp] theorem clearOverrun_windowFull (s : State) (v : Word) : (s.clearOverrun v).windowFull = s.windowFull := rfl
@[simp] theorem clearOverrun_overrun (s : State) (v : Word) : (s.clearOverrun v).overrun = (s.overrun && !v.getLsbD 9) := rfl
@[simp] theorem clearOverrun_latencyMs (s : State) (v : Word) : (s.clearOverrun v).latencyMs = s.latencyMs := rfl
@[simp] theorem clearOverrun_timeoutMs (s : State) (v : Word) : (s.clearOverrun v).timeoutMs = s.timeoutMs := rfl
@[simp] theorem clearOverrun_inLen (s : State) (v : Word) : (s.clearOverrun v).inLen = s.inLen := rfl
@[simp] theorem clearOverrun_outLen (s : State) (v : Word) : (s.clearOverrun v).outLen = s.outLen := rfl
@[simp] theorem clearOverrun_msgCount (s : State) (v : Word) : (s.clearOverrun v).msgCount = s.msgCount := rfl
@[simp] theorem clearOverrun_consumed (s : State) (v : Word) : (s.clearOverrun v).consumed = s.consumed := rfl
@[simp] theorem clearOverrun_phase (s : State) (v : Word) : (s.clearOverrun v).phase = s.phase := rfl
@[simp] theorem clearOverrun_op (s : State) (v : Word) : (s.clearOverrun v).op = s.op := rfl
@[simp] theorem clearOverrun_q (s : State) (v : Word) : (s.clearOverrun v).q = s.q := rfl
@[simp] theorem clearOverrun_n (s : State) (v : Word) : (s.clearOverrun v).n = s.n := rfl
@[simp] theorem clearOverrun_last (s : State) (v : Word) : (s.clearOverrun v).last = s.last := rfl
@[simp] theorem clearOverrun_len (s : State) (v : Word) : (s.clearOverrun v).len = s.len := rfl
@[simp] theorem clearOverrun_elapsed (s : State) (v : Word) : (s.clearOverrun v).elapsed = s.elapsed := rfl
@[simp] theorem clearOverrun_idle (s : State) (v : Word) : (s.clearOverrun v).idle = s.idle := rfl
@[simp] theorem clearOverrun_wlen (s : State) (v : Word) : (s.clearOverrun v).wlen = s.wlen := rfl
@[simp] theorem clearOverrun_full (s : State) (v : Word) : (s.clearOverrun v).full = s.full := rfl
@[simp] theorem clearOverrun_flen (s : State) (v : Word) : (s.clearOverrun v).flen = s.flen := rfl
@[simp] theorem clearOverrun_k (s : State) (v : Word) : (s.clearOverrun v).k = s.k := rfl
@[simp] theorem clearOverrun_ibuf (s : State) (v : Word) : (s.clearOverrun v).ibuf = s.ibuf := rfl
@[simp] theorem clearOverrun_obuf (s : State) (v : Word) : (s.clearOverrun v).obuf = s.obuf := rfl
@[simp] theorem clearOverrun_msg (s : State) (v : Word) : (s.clearOverrun v).msg = s.msg := rfl
@[simp] theorem clearOverrun_rxFifo (s : State) (v : Word) : (s.clearOverrun v).rxFifo = s.rxFifo := rfl
@[simp] theorem clearOverrun_wire (s : State) (v : Word) : (s.clearOverrun v).wire = s.wire := rfl
@[simp] theorem clearOverrun_pins (s : State) (v : Word) : (s.clearOverrun v).pins = s.pins := rfl
@[simp] theorem clearOverrun_rdata (s : State) (v : Word) : (s.clearOverrun v).rdata = s.rdata := rfl
@[simp] theorem clearOverrun_sched (s : State) (v : Word) : (s.clearOverrun v).sched = s.sched := rfl
@[simp] theorem clearOverrun_epoch (s : State) (v : Word) : (s.clearOverrun v).epoch = s.epoch := rfl
@[simp] theorem clearOverrun_draw (s : State) (v : Word) : (s.clearOverrun v).draw = s.draw := rfl

/-! ### `State.enterScan` -/

@[simp] theorem enterScan_cfg (s : State) (len : BitVec 16) : (s.enterScan len).cfg = s.cfg := rfl
@[simp] theorem enterScan_result (s : State) (len : BitVec 16) : (s.enterScan len).result = s.result := rfl
@[simp] theorem enterScan_windowFull (s : State) (len : BitVec 16) : (s.enterScan len).windowFull = s.windowFull := rfl
@[simp] theorem enterScan_overrun (s : State) (len : BitVec 16) : (s.enterScan len).overrun = s.overrun := rfl
@[simp] theorem enterScan_latencyMs (s : State) (len : BitVec 16) : (s.enterScan len).latencyMs = s.latencyMs := rfl
@[simp] theorem enterScan_timeoutMs (s : State) (len : BitVec 16) : (s.enterScan len).timeoutMs = s.timeoutMs := rfl
@[simp] theorem enterScan_inLen (s : State) (len : BitVec 16) : (s.enterScan len).inLen = s.inLen := rfl
@[simp] theorem enterScan_outLen (s : State) (len : BitVec 16) : (s.enterScan len).outLen = s.outLen := rfl
@[simp] theorem enterScan_msgCount (s : State) (len : BitVec 16) : (s.enterScan len).msgCount = s.msgCount := rfl
@[simp] theorem enterScan_consumed (s : State) (len : BitVec 16) : (s.enterScan len).consumed = s.consumed := rfl
@[simp] theorem enterScan_phase (s : State) (len : BitVec 16) : (s.enterScan len).phase = .scan := rfl
@[simp] theorem enterScan_op (s : State) (len : BitVec 16) : (s.enterScan len).op = s.op := rfl
@[simp] theorem enterScan_q (s : State) (len : BitVec 16) : (s.enterScan len).q = 0#17 := rfl
@[simp] theorem enterScan_n (s : State) (len : BitVec 16) : (s.enterScan len).n = 0#16 := rfl
@[simp] theorem enterScan_last (s : State) (len : BitVec 16) : (s.enterScan len).last = 0#17 := rfl
@[simp] theorem enterScan_len (s : State) (len : BitVec 16) : (s.enterScan len).len = len := rfl
@[simp] theorem enterScan_elapsed (s : State) (len : BitVec 16) : (s.enterScan len).elapsed = s.elapsed := rfl
@[simp] theorem enterScan_idle (s : State) (len : BitVec 16) : (s.enterScan len).idle = s.idle := rfl
@[simp] theorem enterScan_wlen (s : State) (len : BitVec 16) : (s.enterScan len).wlen = s.wlen := rfl
@[simp] theorem enterScan_full (s : State) (len : BitVec 16) : (s.enterScan len).full = s.full := rfl
@[simp] theorem enterScan_flen (s : State) (len : BitVec 16) : (s.enterScan len).flen = s.flen := rfl
@[simp] theorem enterScan_k (s : State) (len : BitVec 16) : (s.enterScan len).k = s.k := rfl
@[simp] theorem enterScan_ibuf (s : State) (len : BitVec 16) : (s.enterScan len).ibuf = s.ibuf := rfl
@[simp] theorem enterScan_obuf (s : State) (len : BitVec 16) : (s.enterScan len).obuf = s.obuf := rfl
@[simp] theorem enterScan_msg (s : State) (len : BitVec 16) : (s.enterScan len).msg = s.msg := rfl
@[simp] theorem enterScan_rxFifo (s : State) (len : BitVec 16) : (s.enterScan len).rxFifo = s.rxFifo := rfl
@[simp] theorem enterScan_wire (s : State) (len : BitVec 16) : (s.enterScan len).wire = s.wire := rfl
@[simp] theorem enterScan_pins (s : State) (len : BitVec 16) : (s.enterScan len).pins = s.pins := rfl
@[simp] theorem enterScan_rdata (s : State) (len : BitVec 16) : (s.enterScan len).rdata = s.rdata := rfl
@[simp] theorem enterScan_sched (s : State) (len : BitVec 16) : (s.enterScan len).sched = s.sched := rfl
@[simp] theorem enterScan_epoch (s : State) (len : BitVec 16) : (s.enterScan len).epoch = s.epoch := rfl
@[simp] theorem enterScan_draw (s : State) (len : BitVec 16) : (s.enterScan len).draw = s.draw := rfl

/-! ### `State.popInto` -/

@[simp] theorem popInto_cfg (s : State) (i : Nat) (b : Byte) (rest : List Byte) : (s.popInto i b rest).cfg = s.cfg := rfl
@[simp] theorem popInto_result (s : State) (i : Nat) (b : Byte) (rest : List Byte) : (s.popInto i b rest).result = s.result := rfl
@[simp] theorem popInto_windowFull (s : State) (i : Nat) (b : Byte) (rest : List Byte) : (s.popInto i b rest).windowFull = s.windowFull := rfl
@[simp] theorem popInto_overrun (s : State) (i : Nat) (b : Byte) (rest : List Byte) : (s.popInto i b rest).overrun = s.overrun := rfl
@[simp] theorem popInto_latencyMs (s : State) (i : Nat) (b : Byte) (rest : List Byte) : (s.popInto i b rest).latencyMs = s.latencyMs := rfl
@[simp] theorem popInto_timeoutMs (s : State) (i : Nat) (b : Byte) (rest : List Byte) : (s.popInto i b rest).timeoutMs = s.timeoutMs := rfl
@[simp] theorem popInto_inLen (s : State) (i : Nat) (b : Byte) (rest : List Byte) : (s.popInto i b rest).inLen = s.inLen := rfl
@[simp] theorem popInto_outLen (s : State) (i : Nat) (b : Byte) (rest : List Byte) : (s.popInto i b rest).outLen = s.outLen := rfl
@[simp] theorem popInto_msgCount (s : State) (i : Nat) (b : Byte) (rest : List Byte) : (s.popInto i b rest).msgCount = s.msgCount := rfl
@[simp] theorem popInto_consumed (s : State) (i : Nat) (b : Byte) (rest : List Byte) : (s.popInto i b rest).consumed = s.consumed := rfl
@[simp] theorem popInto_phase (s : State) (i : Nat) (b : Byte) (rest : List Byte) : (s.popInto i b rest).phase = s.phase := rfl
@[simp] theorem popInto_op (s : State) (i : Nat) (b : Byte) (rest : List Byte) : (s.popInto i b rest).op = s.op := rfl
@[simp] theorem popInto_q (s : State) (i : Nat) (b : Byte) (rest : List Byte) : (s.popInto i b rest).q = s.q := rfl
@[simp] theorem popInto_n (s : State) (i : Nat) (b : Byte) (rest : List Byte) : (s.popInto i b rest).n = s.n := rfl
@[simp] theorem popInto_last (s : State) (i : Nat) (b : Byte) (rest : List Byte) : (s.popInto i b rest).last = s.last := rfl
@[simp] theorem popInto_len (s : State) (i : Nat) (b : Byte) (rest : List Byte) : (s.popInto i b rest).len = s.len := rfl
@[simp] theorem popInto_elapsed (s : State) (i : Nat) (b : Byte) (rest : List Byte) : (s.popInto i b rest).elapsed = s.elapsed := rfl
@[simp] theorem popInto_idle (s : State) (i : Nat) (b : Byte) (rest : List Byte) : (s.popInto i b rest).idle = s.idle := rfl
@[simp] theorem popInto_wlen (s : State) (i : Nat) (b : Byte) (rest : List Byte) : (s.popInto i b rest).wlen = s.wlen := rfl
@[simp] theorem popInto_full (s : State) (i : Nat) (b : Byte) (rest : List Byte) : (s.popInto i b rest).full = s.full := rfl
@[simp] theorem popInto_flen (s : State) (i : Nat) (b : Byte) (rest : List Byte) : (s.popInto i b rest).flen = s.flen := rfl
@[simp] theorem popInto_k (s : State) (i : Nat) (b : Byte) (rest : List Byte) : (s.popInto i b rest).k = s.k := rfl
@[simp] theorem popInto_ibuf (s : State) (i : Nat) (b : Byte) (rest : List Byte) : (s.popInto i b rest).ibuf = s.ibuf.write i b := rfl
@[simp] theorem popInto_obuf (s : State) (i : Nat) (b : Byte) (rest : List Byte) : (s.popInto i b rest).obuf = s.obuf := rfl
@[simp] theorem popInto_msg (s : State) (i : Nat) (b : Byte) (rest : List Byte) : (s.popInto i b rest).msg = s.msg := rfl
@[simp] theorem popInto_rxFifo (s : State) (i : Nat) (b : Byte) (rest : List Byte) : (s.popInto i b rest).rxFifo = rest := rfl
@[simp] theorem popInto_wire (s : State) (i : Nat) (b : Byte) (rest : List Byte) : (s.popInto i b rest).wire = s.wire := rfl
@[simp] theorem popInto_pins (s : State) (i : Nat) (b : Byte) (rest : List Byte) : (s.popInto i b rest).pins = { Pins.quiet with rxPop := true } := rfl
@[simp] theorem popInto_rdata (s : State) (i : Nat) (b : Byte) (rest : List Byte) : (s.popInto i b rest).rdata = s.rdata := rfl
@[simp] theorem popInto_sched (s : State) (i : Nat) (b : Byte) (rest : List Byte) : (s.popInto i b rest).sched = s.sched := rfl
@[simp] theorem popInto_epoch (s : State) (i : Nat) (b : Byte) (rest : List Byte) : (s.popInto i b rest).epoch = s.epoch := rfl
@[simp] theorem popInto_draw (s : State) (i : Nat) (b : Byte) (rest : List Byte) : (s.popInto i b rest).draw = s.draw := rfl

/-! ### `State.startEncode` -/

@[simp] theorem startEncode_cfg (s : State) : s.startEncode.cfg = s.cfg := rfl
@[simp] theorem startEncode_result (s : State) : s.startEncode.result = s.result := rfl
@[simp] theorem startEncode_windowFull (s : State) : s.startEncode.windowFull = s.windowFull := rfl
@[simp] theorem startEncode_overrun (s : State) : s.startEncode.overrun = s.overrun := rfl
@[simp] theorem startEncode_latencyMs (s : State) : s.startEncode.latencyMs = s.latencyMs := rfl
@[simp] theorem startEncode_timeoutMs (s : State) : s.startEncode.timeoutMs = s.timeoutMs := rfl
@[simp] theorem startEncode_inLen (s : State) : s.startEncode.inLen = s.inLen := rfl
@[simp] theorem startEncode_outLen (s : State) : s.startEncode.outLen = s.outLen := rfl
@[simp] theorem startEncode_msgCount (s : State) : s.startEncode.msgCount = s.msgCount := rfl
@[simp] theorem startEncode_consumed (s : State) : s.startEncode.consumed = s.consumed := rfl
@[simp] theorem startEncode_phase (s : State) : s.startEncode.phase = .enc := rfl
@[simp] theorem startEncode_op (s : State) : s.startEncode.op = .encode := rfl
@[simp] theorem startEncode_q (s : State) : s.startEncode.q = s.q := rfl
@[simp] theorem startEncode_n (s : State) : s.startEncode.n = s.n := rfl
@[simp] theorem startEncode_last (s : State) : s.startEncode.last = s.last := rfl
@[simp] theorem startEncode_len (s : State) : s.startEncode.len = s.len := rfl
@[simp] theorem startEncode_elapsed (s : State) : s.startEncode.elapsed = s.elapsed := rfl
@[simp] theorem startEncode_idle (s : State) : s.startEncode.idle = s.idle := rfl
@[simp] theorem startEncode_wlen (s : State) : s.startEncode.wlen = s.wlen := rfl
@[simp] theorem startEncode_full (s : State) : s.startEncode.full = s.full := rfl
@[simp] theorem startEncode_flen (s : State) : s.startEncode.flen = s.flen := rfl
@[simp] theorem startEncode_k (s : State) : s.startEncode.k = s.k := rfl
@[simp] theorem startEncode_ibuf (s : State) : s.startEncode.ibuf = s.ibuf := rfl
@[simp] theorem startEncode_obuf (s : State) : s.startEncode.obuf = s.obuf := rfl
@[simp] theorem startEncode_msg (s : State) : s.startEncode.msg = s.msg := rfl
@[simp] theorem startEncode_rxFifo (s : State) : s.startEncode.rxFifo = s.rxFifo := rfl
@[simp] theorem startEncode_wire (s : State) : s.startEncode.wire = s.wire := rfl
@[simp] theorem startEncode_pins (s : State) : s.startEncode.pins = s.pins := rfl
@[simp] theorem startEncode_rdata (s : State) : s.startEncode.rdata = s.rdata := rfl
@[simp] theorem startEncode_sched (s : State) : s.startEncode.sched = s.sched := rfl
@[simp] theorem startEncode_epoch (s : State) : s.startEncode.epoch = s.epoch := rfl
@[simp] theorem startEncode_draw (s : State) : s.startEncode.draw = s.draw := rfl

/-! ### `State.startEmit` -/

@[simp] theorem startEmit_cfg (s : State) : s.startEmit.cfg = s.cfg := rfl
@[simp] theorem startEmit_result (s : State) : s.startEmit.result = s.result := rfl
@[simp] theorem startEmit_windowFull (s : State) : s.startEmit.windowFull = s.windowFull := rfl
@[simp] theorem startEmit_overrun (s : State) : s.startEmit.overrun = s.overrun := rfl
@[simp] theorem startEmit_latencyMs (s : State) : s.startEmit.latencyMs = s.latencyMs := rfl
@[simp] theorem startEmit_timeoutMs (s : State) : s.startEmit.timeoutMs = s.timeoutMs := rfl
@[simp] theorem startEmit_inLen (s : State) : s.startEmit.inLen = s.inLen := rfl
@[simp] theorem startEmit_outLen (s : State) : s.startEmit.outLen = s.outLen := rfl
@[simp] theorem startEmit_msgCount (s : State) : s.startEmit.msgCount = s.msgCount := rfl
@[simp] theorem startEmit_consumed (s : State) : s.startEmit.consumed = s.consumed := rfl
@[simp] theorem startEmit_phase (s : State) : s.startEmit.phase = .enc := rfl
@[simp] theorem startEmit_op (s : State) : s.startEmit.op = .emit := rfl
@[simp] theorem startEmit_q (s : State) : s.startEmit.q = s.q := rfl
@[simp] theorem startEmit_n (s : State) : s.startEmit.n = s.n := rfl
@[simp] theorem startEmit_last (s : State) : s.startEmit.last = s.last := rfl
@[simp] theorem startEmit_len (s : State) : s.startEmit.len = s.len := rfl
@[simp] theorem startEmit_elapsed (s : State) : s.startEmit.elapsed = s.elapsed := rfl
@[simp] theorem startEmit_idle (s : State) : s.startEmit.idle = s.idle := rfl
@[simp] theorem startEmit_wlen (s : State) : s.startEmit.wlen = s.wlen := rfl
@[simp] theorem startEmit_full (s : State) : s.startEmit.full = s.full := rfl
@[simp] theorem startEmit_flen (s : State) : s.startEmit.flen = s.flen := rfl
@[simp] theorem startEmit_k (s : State) : s.startEmit.k = s.k := rfl
@[simp] theorem startEmit_ibuf (s : State) : s.startEmit.ibuf = s.ibuf := rfl
@[simp] theorem startEmit_obuf (s : State) : s.startEmit.obuf = s.obuf := rfl
@[simp] theorem startEmit_msg (s : State) : s.startEmit.msg = s.msg := rfl
@[simp] theorem startEmit_rxFifo (s : State) : s.startEmit.rxFifo = s.rxFifo := rfl
@[simp] theorem startEmit_wire (s : State) : s.startEmit.wire = s.wire := rfl
@[simp] theorem startEmit_pins (s : State) : s.startEmit.pins = s.pins := rfl
@[simp] theorem startEmit_rdata (s : State) : s.startEmit.rdata = s.rdata := rfl
@[simp] theorem startEmit_sched (s : State) : s.startEmit.sched = s.sched := rfl
@[simp] theorem startEmit_epoch (s : State) : s.startEmit.epoch = s.epoch := rfl
@[simp] theorem startEmit_draw (s : State) : s.startEmit.draw = s.draw := rfl

/-! ### `State.startDecode` -/

@[simp] theorem startDecode_cfg (s : State) : s.startDecode.cfg = s.cfg := rfl
@[simp] theorem startDecode_result (s : State) : s.startDecode.result = s.result := rfl
@[simp] theorem startDecode_windowFull (s : State) : s.startDecode.windowFull = s.windowFull := rfl
@[simp] theorem startDecode_overrun (s : State) : s.startDecode.overrun = s.overrun := rfl
@[simp] theorem startDecode_latencyMs (s : State) : s.startDecode.latencyMs = s.latencyMs := rfl
@[simp] theorem startDecode_timeoutMs (s : State) : s.startDecode.timeoutMs = s.timeoutMs := rfl
@[simp] theorem startDecode_inLen (s : State) : s.startDecode.inLen = s.inLen := rfl
@[simp] theorem startDecode_outLen (s : State) : s.startDecode.outLen = s.outLen := rfl
@[simp] theorem startDecode_msgCount (s : State) : s.startDecode.msgCount = s.msgCount := rfl
@[simp] theorem startDecode_consumed (s : State) : s.startDecode.consumed = s.consumed := rfl
@[simp] theorem startDecode_phase (s : State) : s.startDecode.phase = .scan := rfl
@[simp] theorem startDecode_op (s : State) : s.startDecode.op = .decode := rfl
@[simp] theorem startDecode_q (s : State) : s.startDecode.q = 0#17 := rfl
@[simp] theorem startDecode_n (s : State) : s.startDecode.n = 0#16 := rfl
@[simp] theorem startDecode_last (s : State) : s.startDecode.last = 0#17 := rfl
@[simp] theorem startDecode_len (s : State) : s.startDecode.len = s.inLen := rfl
@[simp] theorem startDecode_elapsed (s : State) : s.startDecode.elapsed = s.elapsed := rfl
@[simp] theorem startDecode_idle (s : State) : s.startDecode.idle = s.idle := rfl
@[simp] theorem startDecode_wlen (s : State) : s.startDecode.wlen = s.wlen := rfl
@[simp] theorem startDecode_full (s : State) : s.startDecode.full = s.full := rfl
@[simp] theorem startDecode_flen (s : State) : s.startDecode.flen = s.flen := rfl
@[simp] theorem startDecode_k (s : State) : s.startDecode.k = s.k := rfl
@[simp] theorem startDecode_ibuf (s : State) : s.startDecode.ibuf = s.ibuf := rfl
@[simp] theorem startDecode_obuf (s : State) : s.startDecode.obuf = s.obuf := rfl
@[simp] theorem startDecode_msg (s : State) : s.startDecode.msg = s.msg := rfl
@[simp] theorem startDecode_rxFifo (s : State) : s.startDecode.rxFifo = s.rxFifo := rfl
@[simp] theorem startDecode_wire (s : State) : s.startDecode.wire = s.wire := rfl
@[simp] theorem startDecode_pins (s : State) : s.startDecode.pins = s.pins := rfl
@[simp] theorem startDecode_rdata (s : State) : s.startDecode.rdata = s.rdata := rfl
@[simp] theorem startDecode_sched (s : State) : s.startDecode.sched = s.sched := rfl
@[simp] theorem startDecode_epoch (s : State) : s.startDecode.epoch = s.epoch := rfl
@[simp] theorem startDecode_draw (s : State) : s.startDecode.draw = s.draw := rfl

/-! ### `State.completeIllegal` -/

@[simp] theorem completeIllegal_cfg (s : State) : s.completeIllegal.cfg = s.cfg := rfl
@[simp] theorem completeIllegal_result (s : State) : s.completeIllegal.result = .illegalOp := rfl
@[simp] theorem completeIllegal_windowFull (s : State) : s.completeIllegal.windowFull = false := rfl
@[simp] theorem completeIllegal_overrun (s : State) : s.completeIllegal.overrun = s.overrun := rfl
@[simp] theorem completeIllegal_latencyMs (s : State) : s.completeIllegal.latencyMs = s.latencyMs := rfl
@[simp] theorem completeIllegal_timeoutMs (s : State) : s.completeIllegal.timeoutMs = s.timeoutMs := rfl
@[simp] theorem completeIllegal_inLen (s : State) : s.completeIllegal.inLen = s.inLen := rfl
@[simp] theorem completeIllegal_outLen (s : State) : s.completeIllegal.outLen = s.outLen := rfl
@[simp] theorem completeIllegal_msgCount (s : State) : s.completeIllegal.msgCount = s.msgCount := rfl
@[simp] theorem completeIllegal_consumed (s : State) : s.completeIllegal.consumed = s.consumed := rfl
@[simp] theorem completeIllegal_phase (s : State) : s.completeIllegal.phase = .idle := rfl
@[simp] theorem completeIllegal_op (s : State) : s.completeIllegal.op = s.op := rfl
@[simp] theorem completeIllegal_q (s : State) : s.completeIllegal.q = s.q := rfl
@[simp] theorem completeIllegal_n (s : State) : s.completeIllegal.n = s.n := rfl
@[simp] theorem completeIllegal_last (s : State) : s.completeIllegal.last = s.last := rfl
@[simp] theorem completeIllegal_len (s : State) : s.completeIllegal.len = s.len := rfl
@[simp] theorem completeIllegal_elapsed (s : State) : s.completeIllegal.elapsed = s.elapsed := rfl
@[simp] theorem completeIllegal_idle (s : State) : s.completeIllegal.idle = s.idle := rfl
@[simp] theorem completeIllegal_wlen (s : State) : s.completeIllegal.wlen = s.wlen := rfl
@[simp] theorem completeIllegal_full (s : State) : s.completeIllegal.full = s.full := rfl
@[simp] theorem completeIllegal_flen (s : State) : s.completeIllegal.flen = s.flen := rfl
@[simp] theorem completeIllegal_k (s : State) : s.completeIllegal.k = s.k := rfl
@[simp] theorem completeIllegal_ibuf (s : State) : s.completeIllegal.ibuf = s.ibuf := rfl
@[simp] theorem completeIllegal_obuf (s : State) : s.completeIllegal.obuf = s.obuf := rfl
@[simp] theorem completeIllegal_msg (s : State) : s.completeIllegal.msg = s.msg := rfl
@[simp] theorem completeIllegal_rxFifo (s : State) : s.completeIllegal.rxFifo = s.rxFifo := rfl
@[simp] theorem completeIllegal_wire (s : State) : s.completeIllegal.wire = s.wire := rfl
@[simp] theorem completeIllegal_pins (s : State) : s.completeIllegal.pins = s.pins := rfl
@[simp] theorem completeIllegal_rdata (s : State) : s.completeIllegal.rdata = s.rdata := rfl
@[simp] theorem completeIllegal_sched (s : State) : s.completeIllegal.sched = s.sched := rfl
@[simp] theorem completeIllegal_epoch (s : State) : s.completeIllegal.epoch = s.epoch := rfl
@[simp] theorem completeIllegal_draw (s : State) : s.completeIllegal.draw = s.draw := rfl

/-! ### `flushStep` -/

@[simp] theorem flushStep_cfg (s : State) : (flushStep s).cfg = s.cfg := rfl
@[simp] theorem flushStep_result (s : State) : (flushStep s).result = s.result := rfl
@[simp] theorem flushStep_windowFull (s : State) : (flushStep s).windowFull = s.windowFull := rfl
@[simp] theorem flushStep_overrun (s : State) : (flushStep s).overrun = s.overrun := rfl
@[simp] theorem flushStep_latencyMs (s : State) : (flushStep s).latencyMs = s.latencyMs := rfl
@[simp] theorem flushStep_timeoutMs (s : State) : (flushStep s).timeoutMs = s.timeoutMs := rfl
@[simp] theorem flushStep_inLen (s : State) : (flushStep s).inLen = s.inLen := rfl
@[simp] theorem flushStep_outLen (s : State) : (flushStep s).outLen = s.outLen := rfl
@[simp] theorem flushStep_msgCount (s : State) : (flushStep s).msgCount = s.msgCount := rfl
@[simp] theorem flushStep_consumed (s : State) : (flushStep s).consumed = s.consumed := rfl
@[simp] theorem flushStep_phase (s : State) : (flushStep s).phase = .tx := rfl
@[simp] theorem flushStep_op (s : State) : (flushStep s).op = s.op := rfl
@[simp] theorem flushStep_q (s : State) : (flushStep s).q = s.q := rfl
@[simp] theorem flushStep_n (s : State) : (flushStep s).n = s.n := rfl
@[simp] theorem flushStep_last (s : State) : (flushStep s).last = s.last := rfl
@[simp] theorem flushStep_len (s : State) : (flushStep s).len = s.len := rfl
@[simp] theorem flushStep_elapsed (s : State) : (flushStep s).elapsed = s.elapsed := rfl
@[simp] theorem flushStep_idle (s : State) : (flushStep s).idle = s.idle := rfl
@[simp] theorem flushStep_wlen (s : State) : (flushStep s).wlen = s.wlen := rfl
@[simp] theorem flushStep_full (s : State) : (flushStep s).full = s.full := rfl
@[simp] theorem flushStep_flen (s : State) : (flushStep s).flen = s.flen := rfl
@[simp] theorem flushStep_k (s : State) : (flushStep s).k = 0#9 := rfl
@[simp] theorem flushStep_ibuf (s : State) : (flushStep s).ibuf = s.ibuf := rfl
@[simp] theorem flushStep_obuf (s : State) : (flushStep s).obuf = s.obuf := rfl
@[simp] theorem flushStep_msg (s : State) : (flushStep s).msg = s.msg := rfl
@[simp] theorem flushStep_rxFifo (s : State) : (flushStep s).rxFifo = [] := rfl
@[simp] theorem flushStep_wire (s : State) : (flushStep s).wire = s.wire := rfl
@[simp] theorem flushStep_pins (s : State) : (flushStep s).pins = { Pins.quiet with rxFlush := true } := rfl
@[simp] theorem flushStep_rdata (s : State) : (flushStep s).rdata = s.rdata := rfl
@[simp] theorem flushStep_sched (s : State) : (flushStep s).sched = s.sched := rfl
@[simp] theorem flushStep_epoch (s : State) : (flushStep s).epoch = s.epoch := rfl
@[simp] theorem flushStep_draw (s : State) : (flushStep s).draw = s.draw := rfl

/-! ### `finishDecode` -/

@[simp] theorem finishDecode_cfg (s : State) : (finishDecode s).cfg = s.cfg := rfl
@[simp] theorem finishDecode_result (s : State) : (finishDecode s).result = .ok := rfl
@[simp] theorem finishDecode_windowFull (s : State) : (finishDecode s).windowFull = false := rfl
@[simp] theorem finishDecode_overrun (s : State) : (finishDecode s).overrun = s.overrun := rfl
@[simp] theorem finishDecode_latencyMs (s : State) : (finishDecode s).latencyMs = s.latencyMs := rfl
@[simp] theorem finishDecode_timeoutMs (s : State) : (finishDecode s).timeoutMs = s.timeoutMs := rfl
@[simp] theorem finishDecode_inLen (s : State) : (finishDecode s).inLen = s.inLen := rfl
@[simp] theorem finishDecode_outLen (s : State) : (finishDecode s).outLen = s.outLen := rfl
@[simp] theorem finishDecode_msgCount (s : State) : (finishDecode s).msgCount = s.n := rfl
@[simp] theorem finishDecode_consumed (s : State) : (finishDecode s).consumed = s.last.setWidth 16 := rfl
@[simp] theorem finishDecode_phase (s : State) : (finishDecode s).phase = .idle := rfl
@[simp] theorem finishDecode_op (s : State) : (finishDecode s).op = s.op := rfl
@[simp] theorem finishDecode_q (s : State) : (finishDecode s).q = s.q := rfl
@[simp] theorem finishDecode_n (s : State) : (finishDecode s).n = s.n := rfl
@[simp] theorem finishDecode_last (s : State) : (finishDecode s).last = s.last := rfl
@[simp] theorem finishDecode_len (s : State) : (finishDecode s).len = s.len := rfl
@[simp] theorem finishDecode_elapsed (s : State) : (finishDecode s).elapsed = s.elapsed := rfl
@[simp] theorem finishDecode_idle (s : State) : (finishDecode s).idle = s.idle := rfl
@[simp] theorem finishDecode_wlen (s : State) : (finishDecode s).wlen = s.wlen := rfl
@[simp] theorem finishDecode_full (s : State) : (finishDecode s).full = s.full := rfl
@[simp] theorem finishDecode_flen (s : State) : (finishDecode s).flen = s.flen := rfl
@[simp] theorem finishDecode_k (s : State) : (finishDecode s).k = s.k := rfl
@[simp] theorem finishDecode_ibuf (s : State) : (finishDecode s).ibuf = s.ibuf := rfl
@[simp] theorem finishDecode_obuf (s : State) : (finishDecode s).obuf = s.obuf := rfl
@[simp] theorem finishDecode_msg (s : State) : (finishDecode s).msg = s.msg := rfl
@[simp] theorem finishDecode_rxFifo (s : State) : (finishDecode s).rxFifo = s.rxFifo := rfl
@[simp] theorem finishDecode_wire (s : State) : (finishDecode s).wire = s.wire := rfl
@[simp] theorem finishDecode_pins (s : State) : (finishDecode s).pins = s.pins := rfl
@[simp] theorem finishDecode_rdata (s : State) : (finishDecode s).rdata = s.rdata := rfl
@[simp] theorem finishDecode_sched (s : State) : (finishDecode s).sched = s.sched := rfl
@[simp] theorem finishDecode_epoch (s : State) : (finishDecode s).epoch = s.epoch := rfl
@[simp] theorem finishDecode_draw (s : State) : (finishDecode s).draw = s.draw := rfl

/-! ### `finishReceive` -/

@[simp] theorem finishReceive_cfg (s : State) : (finishReceive s).cfg = s.cfg := rfl
@[simp] theorem finishReceive_result (s : State) : (finishReceive s).result = (if s.n = 0#16 then Result.noResponse else Result.ok) := rfl
@[simp] theorem finishReceive_windowFull (s : State) : (finishReceive s).windowFull = s.full := rfl
@[simp] theorem finishReceive_overrun (s : State) : (finishReceive s).overrun = s.overrun := rfl
@[simp] theorem finishReceive_latencyMs (s : State) : (finishReceive s).latencyMs = s.latencyMs := rfl
@[simp] theorem finishReceive_timeoutMs (s : State) : (finishReceive s).timeoutMs = s.timeoutMs := rfl
@[simp] theorem finishReceive_inLen (s : State) : (finishReceive s).inLen = s.wlen := rfl
@[simp] theorem finishReceive_outLen (s : State) : (finishReceive s).outLen = s.outLen := rfl
@[simp] theorem finishReceive_msgCount (s : State) : (finishReceive s).msgCount = s.n := rfl
@[simp] theorem finishReceive_consumed (s : State) : (finishReceive s).consumed = s.last.setWidth 16 := rfl
@[simp] theorem finishReceive_phase (s : State) : (finishReceive s).phase = .idle := rfl
@[simp] theorem finishReceive_op (s : State) : (finishReceive s).op = s.op := rfl
@[simp] theorem finishReceive_q (s : State) : (finishReceive s).q = s.q := rfl
@[simp] theorem finishReceive_n (s : State) : (finishReceive s).n = s.n := rfl
@[simp] theorem finishReceive_last (s : State) : (finishReceive s).last = s.last := rfl
@[simp] theorem finishReceive_len (s : State) : (finishReceive s).len = s.len := rfl
@[simp] theorem finishReceive_elapsed (s : State) : (finishReceive s).elapsed = s.elapsed := rfl
@[simp] theorem finishReceive_idle (s : State) : (finishReceive s).idle = s.idle := rfl
@[simp] theorem finishReceive_wlen (s : State) : (finishReceive s).wlen = s.wlen := rfl
@[simp] theorem finishReceive_full (s : State) : (finishReceive s).full = s.full := rfl
@[simp] theorem finishReceive_flen (s : State) : (finishReceive s).flen = s.flen := rfl
@[simp] theorem finishReceive_k (s : State) : (finishReceive s).k = s.k := rfl
@[simp] theorem finishReceive_ibuf (s : State) : (finishReceive s).ibuf = s.ibuf := rfl
@[simp] theorem finishReceive_obuf (s : State) : (finishReceive s).obuf = s.obuf := rfl
@[simp] theorem finishReceive_msg (s : State) : (finishReceive s).msg = s.msg := rfl
@[simp] theorem finishReceive_rxFifo (s : State) : (finishReceive s).rxFifo = s.rxFifo := rfl
@[simp] theorem finishReceive_wire (s : State) : (finishReceive s).wire = s.wire := rfl
@[simp] theorem finishReceive_pins (s : State) : (finishReceive s).pins = s.pins := rfl
@[simp] theorem finishReceive_rdata (s : State) : (finishReceive s).rdata = s.rdata := rfl
@[simp] theorem finishReceive_sched (s : State) : (finishReceive s).sched = s.sched := rfl
@[simp] theorem finishReceive_epoch (s : State) : (finishReceive s).epoch = s.epoch := rfl
@[simp] theorem finishReceive_draw (s : State) : (finishReceive s).draw = s.draw := rfl

/-! ### `State.beginCycle` -/

@[simp] theorem beginCycle_cfg (s : State) (c : CycleIn) : (s.beginCycle c).cfg = s.cfg := rfl
@[simp] theorem beginCycle_result (s : State) (c : CycleIn) : (s.beginCycle c).result = s.result := rfl
@[simp] theorem beginCycle_windowFull (s : State) (c : CycleIn) : (s.beginCycle c).windowFull = s.windowFull := rfl
@[simp] theorem beginCycle_overrun (s : State) (c : CycleIn) : (s.beginCycle c).overrun = s.overrun := rfl
@[simp] theorem beginCycle_latencyMs (s : State) (c : CycleIn) : (s.beginCycle c).latencyMs = s.latencyMs := rfl
@[simp] theorem beginCycle_timeoutMs (s : State) (c : CycleIn) : (s.beginCycle c).timeoutMs = s.timeoutMs := rfl
@[simp] theorem beginCycle_inLen (s : State) (c : CycleIn) : (s.beginCycle c).inLen = s.inLen := rfl
@[simp] theorem beginCycle_outLen (s : State) (c : CycleIn) : (s.beginCycle c).outLen = s.outLen := rfl
@[simp] theorem beginCycle_msgCount (s : State) (c : CycleIn) : (s.beginCycle c).msgCount = s.msgCount := rfl
@[simp] theorem beginCycle_consumed (s : State) (c : CycleIn) : (s.beginCycle c).consumed = s.consumed := rfl
@[simp] theorem beginCycle_phase (s : State) (c : CycleIn) : (s.beginCycle c).phase = s.phase := rfl
@[simp] theorem beginCycle_op (s : State) (c : CycleIn) : (s.beginCycle c).op = s.op := rfl
@[simp] theorem beginCycle_q (s : State) (c : CycleIn) : (s.beginCycle c).q = s.q := rfl
@[simp] theorem beginCycle_n (s : State) (c : CycleIn) : (s.beginCycle c).n = s.n := rfl
@[simp] theorem beginCycle_last (s : State) (c : CycleIn) : (s.beginCycle c).last = s.last := rfl
@[simp] theorem beginCycle_len (s : State) (c : CycleIn) : (s.beginCycle c).len = s.len := rfl
@[simp] theorem beginCycle_elapsed (s : State) (c : CycleIn) : (s.beginCycle c).elapsed = s.elapsed := rfl
@[simp] theorem beginCycle_idle (s : State) (c : CycleIn) : (s.beginCycle c).idle = s.idle := rfl
@[simp] theorem beginCycle_wlen (s : State) (c : CycleIn) : (s.beginCycle c).wlen = s.wlen := rfl
@[simp] theorem beginCycle_full (s : State) (c : CycleIn) : (s.beginCycle c).full = s.full := rfl
@[simp] theorem beginCycle_flen (s : State) (c : CycleIn) : (s.beginCycle c).flen = s.flen := rfl
@[simp] theorem beginCycle_k (s : State) (c : CycleIn) : (s.beginCycle c).k = s.k := rfl
@[simp] theorem beginCycle_ibuf (s : State) (c : CycleIn) : (s.beginCycle c).ibuf = s.ibuf := rfl
@[simp] theorem beginCycle_obuf (s : State) (c : CycleIn) : (s.beginCycle c).obuf = s.obuf := rfl
@[simp] theorem beginCycle_msg (s : State) (c : CycleIn) : (s.beginCycle c).msg = s.msg := rfl
@[simp] theorem beginCycle_rxFifo (s : State) (c : CycleIn) : (s.beginCycle c).rxFifo = s.rxFifo ++ c.arrive := rfl
@[simp] theorem beginCycle_wire (s : State) (c : CycleIn) : (s.beginCycle c).wire = s.wire := rfl
@[simp] theorem beginCycle_pins (s : State) (c : CycleIn) : (s.beginCycle c).pins = Pins.quiet := rfl
@[simp] theorem beginCycle_rdata (s : State) (c : CycleIn) : (s.beginCycle c).rdata = none := rfl
@[simp] theorem beginCycle_sched (s : State) (c : CycleIn) : (s.beginCycle c).sched = s.sched.tail := rfl
@[simp] theorem beginCycle_epoch (s : State) (c : CycleIn) : (s.beginCycle c).epoch = s.epoch := rfl
@[simp] theorem beginCycle_draw (s : State) (c : CycleIn) : (s.beginCycle c).draw = s.draw := rfl

/-! ### `State.applyReset` -/

@[simp] theorem applyReset_cfg (s : State) : s.applyReset.cfg = s.cfg := rfl
@[simp] theorem applyReset_result (s : State) : s.applyReset.result = State.reset.result := rfl
@[simp] theorem applyReset_windowFull (s : State) : s.applyReset.windowFull = State.reset.windowFull := rfl
@[simp] theorem applyReset_overrun (s : State) : s.applyReset.overrun = State.reset.overrun := rfl
@[simp] theorem applyReset_latencyMs (s : State) : s.applyReset.latencyMs = State.reset.latencyMs := rfl
@[simp] theorem applyReset_timeoutMs (s : State) : s.applyReset.timeoutMs = State.reset.timeoutMs := rfl
@[simp] theorem applyReset_inLen (s : State) : s.applyReset.inLen = State.reset.inLen := rfl
@[simp] theorem applyReset_outLen (s : State) : s.applyReset.outLen = State.reset.outLen := rfl
@[simp] theorem applyReset_msgCount (s : State) : s.applyReset.msgCount = State.reset.msgCount := rfl
@[simp] theorem applyReset_consumed (s : State) : s.applyReset.consumed = State.reset.consumed := rfl
@[simp] theorem applyReset_phase (s : State) : s.applyReset.phase = State.reset.phase := rfl
@[simp] theorem applyReset_op (s : State) : s.applyReset.op = State.reset.op := rfl
@[simp] theorem applyReset_q (s : State) : s.applyReset.q = State.reset.q := rfl
@[simp] theorem applyReset_n (s : State) : s.applyReset.n = State.reset.n := rfl
@[simp] theorem applyReset_last (s : State) : s.applyReset.last = State.reset.last := rfl
@[simp] theorem applyReset_len (s : State) : s.applyReset.len = State.reset.len := rfl
@[simp] theorem applyReset_elapsed (s : State) : s.applyReset.elapsed = State.reset.elapsed := rfl
@[simp] theorem applyReset_idle (s : State) : s.applyReset.idle = State.reset.idle := rfl
@[simp] theorem applyReset_wlen (s : State) : s.applyReset.wlen = State.reset.wlen := rfl
@[simp] theorem applyReset_full (s : State) : s.applyReset.full = State.reset.full := rfl
@[simp] theorem applyReset_flen (s : State) : s.applyReset.flen = State.reset.flen := rfl
@[simp] theorem applyReset_k (s : State) : s.applyReset.k = State.reset.k := rfl
@[simp] theorem applyReset_ibuf (s : State) : s.applyReset.ibuf = State.reset.ibuf := rfl
@[simp] theorem applyReset_obuf (s : State) : s.applyReset.obuf = State.reset.obuf := rfl
@[simp] theorem applyReset_msg (s : State) : s.applyReset.msg = State.reset.msg := rfl
@[simp] theorem applyReset_rxFifo (s : State) : s.applyReset.rxFifo = s.rxFifo := rfl
@[simp] theorem applyReset_wire (s : State) : s.applyReset.wire = s.wire := rfl
@[simp] theorem applyReset_pins (s : State) : s.applyReset.pins = State.reset.pins := rfl
@[simp] theorem applyReset_rdata (s : State) : s.applyReset.rdata = State.reset.rdata := rfl
@[simp] theorem applyReset_sched (s : State) : s.applyReset.sched = s.sched := rfl
@[simp] theorem applyReset_epoch (s : State) : s.applyReset.epoch = s.epoch + 1 := rfl
@[simp] theorem applyReset_draw (s : State) : s.applyReset.draw = s.draw := rfl

end Sys2Proof.Machine
end

