-- ==== Sys2Proof/Laws/Ops.lean ====
section
/-!
SUPPORT. One lemma per shared operation that says once everything it can do.
-/

namespace Sys2Proof.Machine

/-! ### The busy gate -/

theorem busy_iff (s : State) : s.busy = true ↔ s.phase ≠ .idle := by simp [State.busy]

theorem busy_false_iff (s : State) : s.busy = false ↔ s.phase = .idle := by simp [State.busy]

/-- A host write while an operation runs is dropped and sets OVERRUN. -/
theorem whenIdle_busy (s : State) (f : State → State) (h : s.phase ≠ .idle) :
    s.whenIdle f = { s with overrun := true } := by
  unfold State.whenIdle
  rw [if_pos ((busy_iff s).2 h)]

/-- A host write in IDLE has its effect. -/
theorem whenIdle_idle (s : State) (f : State → State) (h : s.phase = .idle) : s.whenIdle f = f s := by
  unfold State.whenIdle
  rw [(busy_false_iff s).2 h]
  rfl

/-- What a gated host write can do. -/
theorem whenIdle_cases (s : State) (f : State → State) :
    (s.phase ≠ .idle ∧ s.whenIdle f = { s with overrun := true }) ∨ (s.phase = .idle ∧ s.whenIdle f = f s) := by
  by_cases h : s.phase = .idle
  · exact .inr ⟨h, whenIdle_idle s f h⟩
  · exact .inl ⟨h, whenIdle_busy s f h⟩

/-- RECEIVE starts when it is built, and is a reserved opcode otherwise. -/
theorem startReceive_cases (s : State) :
    (s.cfg.rxPresent = true ∧ s.startReceive =
      { s with phase := .arm, op := .receive, elapsed := 0#17, idle := 0#17, wlen := 0#16, full := false }) ∨
    (s.cfg.rxPresent = false ∧ s.startReceive = s.completeIllegal) := by
  unfold State.startReceive
  cases h : s.cfg.rxPresent <;> simp

/-- What an accepted CMD write can do. -/
theorem startOpcode_cases (opcode : BitVec 4) (s : State) :
    s.startOpcode opcode = s.startEncode ∨ s.startOpcode opcode = s.startEmit ∨
    s.startOpcode opcode = s.startDecode ∨ s.startOpcode opcode = s.startReceive ∨
    s.startOpcode opcode = s.completeIllegal := by
  unfold State.startOpcode
  split_ifs <;> simp

/-! ### The codec -/

/-- `encode` fails exactly on a payload of 255 bytes or more, and otherwise gives a frame of 1 to 257 bytes. -/
theorem encodePayload_cases (p : List Byte) :
    (255 ≤ p.length ∧ encodePayload p = .payloadTooLarge) ∨
    (p.length ≤ 254 ∧ ∃ f, encodePayload p = .frame f ∧ 1 ≤ f.length ∧ f.length ≤ 257) := by
  unfold encodePayload Config.maxLen
  split_ifs with h1 h2
  · exact .inl ⟨by omega, rfl⟩
  · exact .inr ⟨by omega, _, rfl, by simp, by simp⟩
  · exact .inr ⟨by omega, _, rfl, by simp, by simp; omega⟩

/-! ### The emitter -/

/-- What the ENC phase can do: fail without transport effect, complete ENCODE, or hand EMIT on to FLUSH. -/
theorem encStep_cases (s : State) :
    (encodePayload (s.ibufPrefix s.inLen.toNat) = .payloadTooLarge ∧
      encStep s = { s with outLen := 0#9 }.complete .payloadTooLarge false) ∨
    (∃ f, encodePayload (s.ibufPrefix s.inLen.toNat) = .frame f ∧ s.op = .emit ∧
      encStep s =
        { s with obuf := s.obuf.writeList 0 f, flen := BitVec.ofNat 9 f.length, phase := .flush }) ∨
    (∃ f, encodePayload (s.ibufPrefix s.inLen.toNat) = .frame f ∧ s.op ≠ .emit ∧
      encStep s =
        { s with
          obuf := s.obuf.writeList 0 f, flen := BitVec.ofNat 9 f.length,
          outLen := BitVec.ofNat 9 f.length }.complete .ok false) := by
  unfold encStep
  cases h : encodePayload (s.ibufPrefix s.inLen.toNat) with
  | payloadTooLarge => simp
  | frame f =>
    by_cases ho : s.op = .emit
    · exact .inr (.inl ⟨f, rfl, ho, by simp [ho]⟩)
    · exact .inr (.inr ⟨f, rfl, ho, by simp [ho]⟩)

/-- What a TX cycle can do: stall, transfer a byte, or transfer the last byte and complete. -/
theorem txStep_cases (ready : Bool) (s : State) :
    (ready = false ∧ txStep ready s =
      { s with pins := { Pins.quiet with tx := some (s.obufAt s.k.toNat) } }) ∨
    (ready = true ∧ s.k.toNat + 1 ≠ s.flen.toNat ∧ txStep ready s =
      { s with
        pins := { Pins.quiet with tx := some (s.obufAt s.k.toNat) }
        wire := s.wire ++ [s.obufAt s.k.toNat]
        k := s.k + 1#9 }) ∨
    (ready = true ∧ s.k.toNat + 1 = s.flen.toNat ∧ txStep ready s =
      { s with
        pins := { Pins.quiet with tx := some (s.obufAt s.k.toNat) }
        wire := s.wire ++ [s.obufAt s.k.toNat]
        outLen := s.flen }.complete .ok false) := by
  unfold txStep
  cases ready with
  | false => simp
  | true =>
    by_cases h : s.k.toNat + 1 = s.flen.toNat
    · simp [h]
    · simp [h]

/-! ### The scanner -/

/-- What one step of the scan loop can do: finish, skip one byte, or accept a frame. -/
theorem scanStep_cases (s : State) :
    (s.len.toNat < s.q.toNat + 3 ∧ scanStep s = finishScan s) ∨
    (s.q.toNat + 3 ≤ s.len.toNat ∧ scanStep s = { s with q := s.q + 1#17 }) ∨
    (∃ l : Nat, l = (s.ibufAt (s.q.toNat + 1)).toNat ∧ 1 ≤ l ∧ l ≤ 255 ∧ s.q.toNat + l + 1 < s.len.toNat ∧
      s.ibufAt s.q.toNat = Config.hdr ∧ s.ibufAt (s.q.toNat + l + 1) = Config.term ∧ scanStep s =
      { s with
        msg := s.msg.write s.n.toNat (descriptor (s.q.toNat + 2) (l - 1))
        n := s.n + 1#16
        last := BitVec.ofNat 17 (s.q.toNat + l + 2)
        q := BitVec.ofNat 17 (s.q.toNat + l + 2) }) := by
  unfold scanStep Config.minFrame
  dsimp only
  split_ifs with h1 h2 h3
  · exact .inl ⟨h1, rfl⟩
  · exact .inr (.inl ⟨by omega, rfl⟩)
  · obtain ⟨h3, h4⟩ := h3
    refine .inr (.inr ⟨_, rfl, ?_, ?_, h3, not_not.1 h2, h4, rfl⟩)
    · rcases Nat.eq_zero_or_pos (s.ibufAt (s.q.toNat + 1)).toNat with h0 | h0
      · rw [h0] at h4
        rw [Nat.add_zero] at h4
        rw [h4] at h0
        exact absurd h0 (by decide)
      · exact h0
    · have := (s.ibufAt (s.q.toNat + 1)).isLt
      omega
  · exact .inr (.inl ⟨by omega, rfl⟩)

/-- Which operation a finishing scan completes. -/
theorem finishScan_cases (s : State) :
    (s.op = .receive ∧ finishScan s = finishReceive s) ∨ (s.op ≠ .receive ∧ finishScan s = finishDecode s) := by
  unfold finishScan
  split_ifs with h
  · exact .inl ⟨h, rfl⟩
  · exact .inr ⟨h, rfl⟩

@[simp] theorem scanSteps_zero (s : State) : scanSteps 0 s = s := rfl

theorem scanSteps_succ (w : Nat) (s : State) (h : s.phase = .scan) :
    scanSteps (w + 1) s = scanSteps w (scanStep s) := by
  simp [scanSteps, h]

theorem scanSteps_done (w : Nat) (s : State) (h : s.phase ≠ .scan) : scanSteps w s = s := by
  cases w with
  | zero => rfl
  | succ w => simp [scanSteps, h]

/-- A cycle of `a + b` scan steps is a cycle of `a` and a cycle of `b` (R162). -/
theorem scanSteps_add (a b : Nat) (s : State) : scanSteps (a + b) s = scanSteps b (scanSteps a s) := by
  induction a generalizing s with
  | zero => rw [Nat.zero_add, scanSteps_zero]
  | succ a ih =>
    by_cases h : s.phase = .scan
    · rw [Nat.succ_add, scanSteps_succ _ _ h, scanSteps_succ _ _ h, ih]
    · rw [scanSteps_done _ _ h, scanSteps_done _ _ h, scanSteps_done _ _ h]

/-- The fields of a descriptor whose offset and length fit them (R100). -/
theorem descriptor_fields (off plen : Nat) (ho : off < 65536) (hp : plen < 256) :
    descOffset (descriptor off plen) = off ∧ descPlen (descriptor off plen) = plen ∧
      (descriptor off plen).extractLsb' 24 8 = 0#8 := by
  have hd : (descriptor off plen).toNat = plen * 65536 + off := by
    simp only [descriptor, BitVec.toNat_or, BitVec.toNat_shiftLeft, BitVec.toNat_setWidth, BitVec.toNat_ofNat]
    rw [Nat.shiftLeft_eq, show off % 2 ^ 16 % 2 ^ 32 = off by omega,
      show plen % 2 ^ 8 % 2 ^ 32 * 2 ^ 16 % 2 ^ 32 = 2 ^ 16 * plen by omega, ← Nat.two_pow_add_eq_or_of_lt (by omega)]
    omega
  refine ⟨?_, ?_, BitVec.eq_of_toNat_eq ?_⟩
  · rw [descOffset, BitVec.extractLsb'_toNat, hd, Nat.shiftRight_eq_div_pow]; omega
  · rw [descPlen, BitVec.extractLsb'_toNat, hd, Nat.shiftRight_eq_div_pow]; omega
  · rw [BitVec.extractLsb'_toNat, hd, Nat.shiftRight_eq_div_pow, BitVec.toNat_ofNat]; omega

/-- An invariant of one scan step is one of any number of them: the scan loop's induction, packaged once. -/
theorem scanSteps_induction (P : State → Prop) (hstep : ∀ s, s.phase = .scan → P s → P (scanStep s))
    (w : Nat) (s : State) (h : P s) : P (scanSteps w s) := by
  induction w generalizing s with
  | zero => exact h
  | succ w ih =>
    by_cases hp : s.phase = .scan
    · rw [scanSteps_succ w s hp]
      exact ih _ (hstep s hp h)
    · rw [scanSteps_done _ s hp]
      exact h

/-! ### The receiver -/

/-- What an ARM cycle can do: take the first byte, give up at the deadline, count a tick, or wait. -/
theorem armStep_cases (tick : Bool) (s : State) :
    (∃ b rest, s.rxFifo = b :: rest ∧ armStep tick s =
      { s.popInto 0 b rest with wlen := 1#16, idle := 0#17, phase := .drain }) ∨
    (s.rxFifo = [] ∧ s.latencyMs.toNat ≤ s.elapsed.toNat ∧ armStep tick s = s.enterScan 0#16) ∨
    (s.rxFifo = [] ∧ s.elapsed.toNat < s.latencyMs.toNat ∧ tick = true ∧ armStep tick s =
      { s with elapsed := sat17 s.elapsed }) ∨
    (s.rxFifo = [] ∧ s.elapsed.toNat < s.latencyMs.toNat ∧ tick = false ∧ armStep tick s = s) := by
  unfold armStep
  cases hf : s.rxFifo with
  | cons b rest => exact .inl ⟨b, rest, rfl, rfl⟩
  | nil =>
    by_cases hl : s.latencyMs.toNat ≤ s.elapsed.toNat
    · simp [hl]
    · cases tick <;> simp [hl] <;> omega

/-- What a DRAIN cycle can do: take a byte, find the window full, time out, count a tick, or wait. -/
theorem drainStep_cases (tick : Bool) (s : State) :
    (∃ b rest, s.rxFifo = b :: rest ∧ s.wlen.toNat < s.cfg.ibufBytes ∧ drainStep tick s =
      { s.popInto s.wlen.toNat b rest with wlen := s.wlen + 1#16, idle := 0#17 }) ∨
    (s.rxFifo ≠ [] ∧ s.cfg.ibufBytes ≤ s.wlen.toNat ∧ drainStep tick s =
      { s with full := true }.enterScan s.wlen) ∨
    (s.rxFifo = [] ∧ s.timeoutMs.toNat < s.idle.toNat ∧ drainStep tick s = s.enterScan s.wlen) ∨
    (s.rxFifo = [] ∧ s.idle.toNat ≤ s.timeoutMs.toNat ∧ tick = true ∧ drainStep tick s =
      { s with idle := sat17 s.idle }) ∨
    (s.rxFifo = [] ∧ s.idle.toNat ≤ s.timeoutMs.toNat ∧ tick = false ∧ drainStep tick s = s) := by
  unfold drainStep
  cases hf : s.rxFifo with
  | cons b rest =>
    by_cases hw : s.wlen.toNat < s.cfg.ibufBytes
    · exact .inl ⟨b, rest, rfl, hw, by simp [hw]⟩
    · exact .inr (.inl ⟨by simp, by omega, by simp [hw]⟩)
  | nil =>
    by_cases hl : s.timeoutMs.toNat < s.idle.toNat
    · simp [hl]
    · cases tick <;> simp [hl] <;> omega

/-! ### The controller -/

theorem controllerStep_idle (c : CycleIn) (s : State) (h : s.phase = .idle) : controllerStep c s = s := by
  simp [controllerStep, h]

theorem controllerStep_enc (c : CycleIn) (s : State) (h : s.phase = .enc) :
    controllerStep c s = if c.work = 0 then s else encStep s := by
  simp [controllerStep, h]

theorem controllerStep_flush (c : CycleIn) (s : State) (h : s.phase = .flush) : controllerStep c s = flushStep s := by
  simp [controllerStep, h]

theorem controllerStep_tx (c : CycleIn) (s : State) (h : s.phase = .tx) :
    controllerStep c s = txStep c.txReady s := by
  simp [controllerStep, h]

theorem controllerStep_scan (c : CycleIn) (s : State) (h : s.phase = .scan) :
    controllerStep c s = scanSteps c.work s := by
  simp [controllerStep, h]

theorem controllerStep_arm (c : CycleIn) (s : State) (h : s.phase = .arm) :
    controllerStep c s = armStep c.tick s := by
  simp [controllerStep, h]

theorem controllerStep_drain (c : CycleIn) (s : State) (h : s.phase = .drain) :
    controllerStep c s = drainStep c.tick s := by
  simp [controllerStep, h]

end Sys2Proof.Machine
end

