-- ==== Sys2Proof/Laws/PerInstr.lean ====
section
/-!
SUPPORT. Statements made per instruction, one lemma per constructor of `Instr`.
-/

namespace Sys2Proof.Laws

/-- A request that is a 32-bit access inside the register window (spec 20_memory.md R60), or a CMD word. -/
def Request.inWindow (base : Nat) : Request → Prop
  | .cmd _ => True
  | .read width addr => width = 4 ∧ base ≤ addr ∧ addr < base + Config.windowBytes
  | .write width addr _ => width = 4 ∧ base ≤ addr ∧ addr < base + Config.windowBytes

/-- The encoding of the instruction is an access of FCODEC, wherever the window sits (R60, R61, R79). -/
def EncodesInWindow.Statement (i : Instr) : Prop := ∀ base, Request.inWindow base (encode base i)

/-- A 32-bit access at an offset below the window's size is in the window. -/
theorem window_of_lt (base off : Nat) (h : off < Config.windowBytes) :
    4 = 4 ∧ base ≤ base + off ∧ base + off < base + Config.windowBytes := ⟨rfl, by omega, by omega⟩

theorem EncodesInWindow.encode (ign : BitVec 28) : EncodesInWindow.Statement (.encode ign) := fun _ => trivial
theorem EncodesInWindow.emit (ign : BitVec 28) : EncodesInWindow.Statement (.emit ign) := fun _ => trivial
theorem EncodesInWindow.decode (ign : BitVec 28) : EncodesInWindow.Statement (.decode ign) := fun _ => trivial
theorem EncodesInWindow.receive (ign : BitVec 28) : EncodesInWindow.Statement (.receive ign) := fun _ => trivial
theorem EncodesInWindow.rsvd0 (ign : BitVec 28) : EncodesInWindow.Statement (.rsvd0 ign) := fun _ => trivial
theorem EncodesInWindow.rsvd5 (ign : BitVec 28) : EncodesInWindow.Statement (.rsvd5 ign) := fun _ => trivial
theorem EncodesInWindow.rsvd6 (ign : BitVec 28) : EncodesInWindow.Statement (.rsvd6 ign) := fun _ => trivial
theorem EncodesInWindow.rsvd7 (ign : BitVec 28) : EncodesInWindow.Statement (.rsvd7 ign) := fun _ => trivial
theorem EncodesInWindow.rsvd8F (low : BitVec 3) (ign : BitVec 28) : EncodesInWindow.Statement (.rsvd8F low ign) :=
  fun _ => trivial
theorem EncodesInWindow.rdId : EncodesInWindow.Statement .rdId := fun b => window_of_lt b _ (by decide)
theorem EncodesInWindow.rdCaps : EncodesInWindow.Statement .rdCaps := fun b => window_of_lt b _ (by decide)
theorem EncodesInWindow.rdIbufSize : EncodesInWindow.Statement .rdIbufSize := fun b => window_of_lt b _ (by decide)
theorem EncodesInWindow.wrCmd (v : Word) : EncodesInWindow.Statement (.wrCmd v) := fun b => window_of_lt b _ (by decide)
theorem EncodesInWindow.rdCmd : EncodesInWindow.Statement .rdCmd := fun b => window_of_lt b _ (by decide)
theorem EncodesInWindow.rdStatus : EncodesInWindow.Statement .rdStatus := fun b => window_of_lt b _ (by decide)
theorem EncodesInWindow.wrStatus (v : Word) : EncodesInWindow.Statement (.wrStatus v) :=
  fun b => window_of_lt b _ (by decide)
theorem EncodesInWindow.rdLatencyMs : EncodesInWindow.Statement .rdLatencyMs := fun b => window_of_lt b _ (by decide)
theorem EncodesInWindow.wrLatencyMs (v : Word) : EncodesInWindow.Statement (.wrLatencyMs v) :=
  fun b => window_of_lt b _ (by decide)
theorem EncodesInWindow.rdTimeoutMs : EncodesInWindow.Statement .rdTimeoutMs := fun b => window_of_lt b _ (by decide)
theorem EncodesInWindow.wrTimeoutMs (v : Word) : EncodesInWindow.Statement (.wrTimeoutMs v) :=
  fun b => window_of_lt b _ (by decide)
theorem EncodesInWindow.rdInLen : EncodesInWindow.Statement .rdInLen := fun b => window_of_lt b _ (by decide)
theorem EncodesInWindow.wrInLen (v : Word) : EncodesInWindow.Statement (.wrInLen v) :=
  fun b => window_of_lt b _ (by decide)
theorem EncodesInWindow.rdOutLen : EncodesInWindow.Statement .rdOutLen := fun b => window_of_lt b _ (by decide)
theorem EncodesInWindow.rdMsgCount : EncodesInWindow.Statement .rdMsgCount := fun b => window_of_lt b _ (by decide)
theorem EncodesInWindow.rdConsumed : EncodesInWindow.Statement .rdConsumed := fun b => window_of_lt b _ (by decide)
theorem EncodesInWindow.rdObuf (i : BitVec 10) : EncodesInWindow.Statement (.rdObuf i) :=
  fun b => window_of_lt b _ (by have := i.isLt; unfold Config.windowBytes; omega)
theorem EncodesInWindow.rdMsg (i : BitVec 15) : EncodesInWindow.Statement (.rdMsg i) :=
  fun b => window_of_lt b _ (by have := i.isLt; unfold Config.windowBytes; omega)
theorem EncodesInWindow.rdIbuf (i : BitVec 16) : EncodesInWindow.Statement (.rdIbuf i) :=
  fun b => window_of_lt b _ (by have := i.isLt; unfold Config.windowBytes; omega)
theorem EncodesInWindow.wrIbuf (i : BitVec 16) (v : Word) : EncodesInWindow.Statement (.wrIbuf i v) :=
  fun b => window_of_lt b _ (by have := i.isLt; unfold Config.windowBytes; omega)
theorem EncodesInWindow.wrIgnored (off : BitVec 19) (v : Word) : EncodesInWindow.Statement (.wrIgnored off v) :=
  fun b => window_of_lt b _ (by have := off.isLt; unfold Config.windowBytes; omega)
theorem EncodesInWindow.rdReserved (off : BitVec 19) : EncodesInWindow.Statement (.rdReserved off) :=
  fun b => window_of_lt b _ (by have := off.isLt; unfold Config.windowBytes; omega)

end Sys2Proof.Laws
end

