-- ==== Sys2Proof/Laws/Step.lean ====
section
/-!
SUPPORT. What an instruction and a step can do, said once.
-/

namespace Sys2Proof.Machine

/-- The effects a host access can have in IDLE besides answering a read. -/
def idleEffect (s t : State) : Prop :=
  (∃ h, t = { s with latencyMs := h }) ∨ (∃ h, t = { s with timeoutMs := h }) ∨
  (∃ v, t = { s with inLen := s.inLenOf v }) ∨
  (∃ i b, i < s.cfg.ibufBytes ∧ t = { s with ibuf := s.ibuf.write i b }) ∨
  t = s.startEncode ∨ t = s.startEmit ∨ t = s.startDecode ∨ t = s.startReceive ∨ t = s.completeIllegal

/-- Everything an instruction can do: answer a read, do nothing, clear OVERRUN, be dropped with OVERRUN set while
an operation runs, or have one of the effects of an idle machine. -/
theorem exec_cases (i : Instr) (s : State) :
    ∃ t, exec i s = .next t ∧
      ((∃ v, t = s.respond v) ∨ t = s.respondFree ∨ t = s ∨ (∃ v, t = s.clearOverrun v) ∨
        (s.phase ≠ .idle ∧ t = { s with overrun := true }) ∨ (s.phase = .idle ∧ idleEffect s t)) := by
  have gate : ∀ f : State → State, (s.phase = .idle → idleEffect s (f s)) →
      (∃ v, s.whenIdle f = s.respond v) ∨ s.whenIdle f = s.respondFree ∨ s.whenIdle f = s ∨
        (∃ v, s.whenIdle f = s.clearOverrun v) ∨
        (s.phase ≠ .idle ∧ s.whenIdle f = { s with overrun := true }) ∨
        (s.phase = .idle ∧ idleEffect s (s.whenIdle f)) := by
    intro f hf
    rcases whenIdle_cases s f with ⟨hp, he⟩ | ⟨hp, he⟩
    · exact .inr (.inr (.inr (.inr (.inl ⟨hp, he⟩))))
    · exact .inr (.inr (.inr (.inr (.inr ⟨hp, by rw [he]; exact hf hp⟩))))
  cases i with
  | encode ign => exact ⟨_, rfl, gate _ fun _ => by simp [idleEffect]⟩
  | emit ign => exact ⟨_, rfl, gate _ fun _ => by simp [idleEffect]⟩
  | decode ign => exact ⟨_, rfl, gate _ fun _ => by simp [idleEffect]⟩
  | receive ign => exact ⟨_, rfl, gate _ fun _ => by simp [idleEffect]⟩
  | rsvd0 ign => exact ⟨_, rfl, gate _ fun _ => by simp [idleEffect]⟩
  | rsvd5 ign => exact ⟨_, rfl, gate _ fun _ => by simp [idleEffect]⟩
  | rsvd6 ign => exact ⟨_, rfl, gate _ fun _ => by simp [idleEffect]⟩
  | rsvd7 ign => exact ⟨_, rfl, gate _ fun _ => by simp [idleEffect]⟩
  | rsvd8F low ign => exact ⟨_, rfl, gate _ fun _ => by simp [idleEffect]⟩
  | wrCmd v =>
    refine ⟨_, rfl, gate _ fun _ => ?_⟩
    rcases startOpcode_cases (opcodeOf v) s with h | h | h | h | h <;> rw [h] <;> simp [idleEffect]
  | wrLatencyMs v => exact ⟨_, rfl, gate _ fun _ => .inl ⟨_, rfl⟩⟩
  | wrTimeoutMs v => exact ⟨_, rfl, gate _ fun _ => .inr (.inl ⟨_, rfl⟩)⟩
  | wrInLen v => exact ⟨_, rfl, gate _ fun _ => .inr (.inr (.inl ⟨_, rfl⟩))⟩
  | wrStatus v => exact ⟨_, rfl, .inr (.inr (.inr (.inl ⟨v, rfl⟩)))⟩
  | wrIgnored off v => exact ⟨_, rfl, .inr (.inr (.inl rfl))⟩
  | wrIbuf j v =>
    by_cases hj : j.toNat < s.cfg.ibufBytes
    · refine ⟨_, ?_, gate (fun t => { t with ibuf := t.ibuf.write j.toNat (byteOf v) }) fun _ => ?_⟩
      · simp [exec, execWrIbuf, hj]
      · exact .inr (.inr (.inr (.inl ⟨_, _, hj, rfl⟩)))
    · exact ⟨s, by simp [exec, execWrIbuf, hj], .inr (.inr (.inl rfl))⟩
  | rdObuf j =>
    by_cases hj : j.toNat < Config.obufBytes
    · cases hu : s.obufUnspecified
      · exact ⟨_, by simp [exec, execRdObuf, hj, hu]; rfl, .inl ⟨_, rfl⟩⟩
      · exact ⟨s.respondFree, by simp [exec, execRdObuf, hj, hu], .inr (.inl rfl)⟩
    · exact ⟨_, by simp [exec, execRdObuf, hj]; rfl, .inl ⟨_, rfl⟩⟩
  | rdMsg j =>
    by_cases hj : j.toNat < s.cfg.msgSlots
    · cases hu : s.msgUnspecified
      · exact ⟨_, by simp [exec, execRdMsg, hj, hu]; rfl, .inl ⟨_, rfl⟩⟩
      · exact ⟨s.respondFree, by simp [exec, execRdMsg, hj, hu], .inr (.inl rfl)⟩
    · exact ⟨_, by simp [exec, execRdMsg, hj]; rfl, .inl ⟨_, rfl⟩⟩
  | rdIbuf j =>
    by_cases hj : j.toNat < s.cfg.ibufBytes
    · cases hu : s.ibufUnspecified
      · exact ⟨_, by simp [exec, execRdIbuf, hj, hu]; rfl, .inl ⟨_, rfl⟩⟩
      · exact ⟨s.respondFree, by simp [exec, execRdIbuf, hj, hu], .inr (.inl rfl)⟩
    · exact ⟨_, by simp [exec, execRdIbuf, hj]; rfl, .inl ⟨_, rfl⟩⟩
  | rdId => exact ⟨_, rfl, .inl ⟨_, rfl⟩⟩
  | rdCaps => exact ⟨_, rfl, .inl ⟨_, rfl⟩⟩
  | rdIbufSize => exact ⟨_, rfl, .inl ⟨_, rfl⟩⟩
  | rdCmd => exact ⟨_, rfl, .inl ⟨_, rfl⟩⟩
  | rdStatus => exact ⟨_, rfl, .inl ⟨_, rfl⟩⟩
  | rdLatencyMs => exact ⟨_, rfl, .inl ⟨_, rfl⟩⟩
  | rdTimeoutMs => exact ⟨_, rfl, .inl ⟨_, rfl⟩⟩
  | rdInLen => exact ⟨_, rfl, .inl ⟨_, rfl⟩⟩
  | rdOutLen => exact ⟨_, rfl, .inl ⟨_, rfl⟩⟩
  | rdMsgCount => exact ⟨_, rfl, .inl ⟨_, rfl⟩⟩
  | rdConsumed => exact ⟨_, rfl, .inl ⟨_, rfl⟩⟩
  | rdReserved off => exact ⟨_, rfl, .inl ⟨_, rfl⟩⟩

/-- An access in a reset cycle answers a read or does nothing. -/
theorem accessInReset_cases (i : Instr) (s : State) :
    (∃ v, accessInReset i s = s.respond v) ∨ accessInReset i s = s.respondFree ∨ accessInReset i s = s := by
  have array : ∀ b : Bool, (∃ v, s.readArrayInReset b = s.respond v) ∨ s.readArrayInReset b = s.respondFree ∨
      s.readArrayInReset b = s := by
    intro b
    cases b
    · exact .inl ⟨_, rfl⟩
    · exact .inr (.inl rfl)
  cases i <;> first
    | exact .inr (.inr rfl)
    | exact .inl ⟨_, rfl⟩
    | exact array _

/-- A step that answers a next state is a reset cycle, a cycle without host access, or a cycle that runs one
instruction; the controller steps after it unless the cycle started in IDLE. -/
theorem step_next_cases (s t : State) (h : step s = .next t) :
    s.cfg.legal = true ∧
    ((s.nextCycle.rst = true ∧
        (t = (s.beginCycle s.nextCycle).applyReset ∨
          ∃ i, t = accessInReset i (s.beginCycle s.nextCycle).applyReset)) ∨
      (s.nextCycle.rst = false ∧
        (s.nextCycle.host = none ∧ t = afterAccess s.nextCycle s.phase (s.beginCycle s.nextCycle) ∨
          ∃ i u, fetch s.nextCycle (s.beginCycle s.nextCycle) = .instr i ∧
            exec i (s.beginCycle s.nextCycle) = .next u ∧ t = afterAccess s.nextCycle s.phase u))) := by
  unfold step runCycle at h
  split_ifs at h with hl hr
  · refine ⟨hl, .inl ⟨hr, ?_⟩⟩
    unfold resetCycle at h
    cases hf : fetch s.nextCycle (s.beginCycle s.nextCycle) with
    | noAccess => rw [hf] at h; cases h; exact .inl rfl
    | instr i => rw [hf] at h; cases h; exact .inr ⟨i, rfl⟩
    | rejected e => rw [hf] at h; cases e <;> cases h
  · refine ⟨hl, .inr ⟨by simpa using hr, ?_⟩⟩
    unfold normalCycle at h
    cases hf : fetch s.nextCycle (s.beginCycle s.nextCycle) with
    | noAccess =>
      rw [hf] at h
      cases h
      refine .inl ⟨?_, rfl⟩
      unfold fetch at hf
      cases hh : s.nextCycle.host with
      | none => rfl
      | some r =>
        rw [hh] at hf
        dsimp only at hf
        split at hf <;> cases hf
    | instr i =>
      rw [hf] at h
      dsimp only at h
      obtain ⟨u, hu, -⟩ := exec_cases i (s.beginCycle s.nextCycle)
      rw [hu] at h
      cases h
      exact .inr ⟨i, u, rfl, hu, rfl⟩
    | rejected e => rw [hf] at h; cases e <;> cases h

end Sys2Proof.Machine
end

