-- ==== Sys2Proof/Tests/Slice0.lean ====
section
/-!
SUPPORT. The model's own tests: the well-formedness smoke test, decoding of words and offsets written out from the spec,
one-step tests whose results are the vectors of spec/95_test_vectors.md, and for each statement with hypotheses a state and
operands that meet them.
-/

namespace Sys2Proof.Tests

open Sys2Proof.Machine

/-- IBUF holding `b` from index 0 on, and IN_LEN its length: what `load b` leaves (R103). -/
def loaded (b : List Byte) : State :=
  { State.reset with ibuf := Memory.writeList [] 0 b, inLen := BitVec.ofNat 16 b.length }

/-- A cycle with a host access. -/
def asks (r : Request) : CycleIn := { CycleIn.quiet with host := some r }

/-- The coming cycle of `s` holds the access `r`. -/
def given (s : State) (r : Request) : State := { s with sched := [asks r] }

/-- The coming cycle of `s` has the inputs `c`. -/
def during (s : State) (c : CycleIn) : State := { s with sched := [c] }

/-- The state after one cycle, `none` where the machine stops. -/
def stepped (s : State) : Option State :=
  match step s with
  | .next t => some t
  | .fault _ => none
  | .refused _ => none

/-- The answer to a read of `off` in the coming cycle. -/
def reads (s : State) (off : Nat) : Option Word := (stepped (given s (.read 4 off))).bind State.rdata

/-- An ENCODE in its ENC phase. -/
def encoding (b : List Byte) : State := { loaded b with phase := .enc, op := .encode }

/-- An EMIT in its TX phase with two of the frame's four bytes sent. -/
def sending : State :=
  { loaded [0x00#8] with
    phase := .tx, op := .emit, obuf := Memory.writeList [] 0 [0xAA#8, 0x02#8, 0x00#8, 0x0A#8], flen := 4#9, k := 2#9
    wire := [0xAA#8, 0x02#8] }

/-- A DECODE at its SCAN entry. -/
def scanning (b : List Byte) : State := { loaded b with phase := .scan, op := .decode, len := BitVec.ofNat 16 b.length }

/-- A RECEIVE in ARM. -/
def armed : State := { State.reset with phase := .arm, op := .receive }

/-- A RECEIVE in DRAIN whose window is [AA]. -/
def draining : State :=
  { State.reset with phase := .drain, op := .receive, ibuf := Memory.writeList [] 0 [0xAA#8], wlen := 1#16 }

/-- A RECEIVE in DRAIN whose window is the whole of a 257-byte IBUF. -/
def drainingFull : State :=
  { draining with cfg := { Params.default with ibufBytes := 257 }, wlen := 257#16, rxFifo := [0x55#8] }

/-! ### Well-formedness: an ill-formed term for each check -/

/-- Source: opcode_table.json, the rows WR_IGNORED and RD_RESERVED stand below every row they could match. -/
theorem test_wellFormed_refuses_offsets_of_other_rows :
    (Instr.wrIgnored 0x00010#19 1#32).wellFormed = false ∧ (Instr.wrIgnored 0x00020#19 1#32).wellFormed = false ∧
    (Instr.wrIgnored 0x40000#19 1#32).wellFormed = false ∧ (Instr.wrIgnored 0x7FFFC#19 1#32).wellFormed = false ∧
    (Instr.rdReserved 0x00000#19).wellFormed = false ∧ (Instr.rdReserved 0x0002C#19).wellFormed = false ∧
    (Instr.rdReserved 0x01000#19).wellFormed = false ∧ (Instr.rdReserved 0x01FFC#19).wellFormed = false ∧
    (Instr.rdReserved 0x20000#19).wellFormed = false ∧ (Instr.rdReserved 0x40000#19).wellFormed = false := by decide

/-- Source: R61, R66: read-only, reserved and misaligned offsets. -/
theorem test_wellFormed_accepts_other_offsets :
    (Instr.wrIgnored 0x00024#19 9#32).wellFormed = true ∧ (Instr.wrIgnored 0x40002#19 9#32).wellFormed = true ∧
    (Instr.rdReserved 0x0000C#19).wellFormed = true ∧ (Instr.rdReserved 0x02000#19).wellFormed = true ∧
    (Instr.rdReserved 0x00001#19).wellFormed = true := by decide

/-! ### Decoding: words written out from the spec's encodings -/

/-- Source: R97, R98 (30_encoding.md): the nine rows of the CMD word. -/
theorem test_decode_cmd_words :
    decode 0 (.cmd 0x00000001#32) = .ok (.encode 0#28) ∧ decode 0 (.cmd 0x00000002#32) = .ok (.emit 0#28) ∧
    decode 0 (.cmd 0x00000003#32) = .ok (.decode 0#28) ∧ decode 0 (.cmd 0x00000004#32) = .ok (.receive 0#28) ∧
    decode 0 (.cmd 0x00000000#32) = .ok (.rsvd0 0#28) ∧ decode 0 (.cmd 0x00000005#32) = .ok (.rsvd5 0#28) ∧
    decode 0 (.cmd 0x00000006#32) = .ok (.rsvd6 0#28) ∧ decode 0 (.cmd 0x00000007#32) = .ok (.rsvd7 0#28) ∧
    decode 0 (.cmd 0x00000008#32) = .ok (.rsvd8F 0#3 0#28) ∧ decode 0 (.cmd 0x0000000F#32) = .ok (.rsvd8F 7#3 0#28) := by
  decide

/-- Source: R97: bits [31:4] are the ignored field; HST-7's word 0x13. -/
theorem test_decode_cmd_keeps_ignored_bits :
    decode 0 (.cmd 0x00000013#32) = .ok (.decode 1#28) ∧ decode 0 (.cmd 0xFFFFFFF2#32) = .ok (.emit 0xFFFFFFF#28) ∧
    decode 0 (.cmd 0x8000000C#32) = .ok (.rsvd8F 4#3 0x8000000#28) := by decide

/-- Source: R61 (20_memory.md): the register rows. -/
theorem test_decode_register_reads :
    decode 0 (.read 4 0x00000) = .ok .rdId ∧ decode 0 (.read 4 0x00004) = .ok .rdCaps ∧
    decode 0 (.read 4 0x00008) = .ok .rdIbufSize ∧ decode 0 (.read 4 0x00010) = .ok .rdCmd ∧
    decode 0 (.read 4 0x00014) = .ok .rdStatus ∧ decode 0 (.read 4 0x00018) = .ok .rdLatencyMs ∧
    decode 0 (.read 4 0x0001C) = .ok .rdTimeoutMs ∧ decode 0 (.read 4 0x00020) = .ok .rdInLen ∧
    decode 0 (.read 4 0x00024) = .ok .rdOutLen ∧ decode 0 (.read 4 0x00028) = .ok .rdMsgCount ∧
    decode 0 (.read 4 0x0002C) = .ok .rdConsumed := by decide

/-- Source: R61: the writable registers; HST-10 for OUT_LEN. -/
theorem test_decode_register_writes :
    decode 0 (.write 4 0x00010 1#32) = .ok (.wrCmd 1#32) ∧ decode 0 (.write 4 0x00014 0x200#32) = .ok (.wrStatus 0x200#32) ∧
    decode 0 (.write 4 0x00018 5#32) = .ok (.wrLatencyMs 5#32) ∧ decode 0 (.write 4 0x0001C 2#32) = .ok (.wrTimeoutMs 2#32) ∧
    decode 0 (.write 4 0x00020 3#32) = .ok (.wrInLen 3#32) ∧
    decode 0 (.write 4 0x00024 9#32) = .ok (.wrIgnored 0x00024#19 9#32) := by decide

/-- Source: R62, R63, R64 (offset = base + 4i); the largest index of each window. -/
theorem test_decode_arrays :
    decode 0 (.read 4 0x01000) = .ok (.rdObuf 0#10) ∧ decode 0 (.read 4 0x01404) = .ok (.rdObuf 257#10) ∧
    decode 0 (.read 4 0x20004) = .ok (.rdMsg 1#15) ∧ decode 0 (.read 4 0x20554) = .ok (.rdMsg 341#15) ∧
    decode 0 (.read 4 0x40008) = .ok (.rdIbuf 2#16) ∧ decode 0 (.read 4 0x7FFFC) = .ok (.rdIbuf 65535#16) ∧
    decode 0 (.write 4 0x41F40 7#32) = .ok (.wrIbuf 2000#16 7#32) := by decide

/-- Source: HST-8, HST-9: misaligned and reserved offsets; and the same at another BASE (R60). -/
theorem test_decode_other_offsets :
    decode 0 (.read 4 0x00016) = .ok (.rdReserved 0x00016#19) ∧ decode 0 (.read 4 0x0000C) = .ok (.rdReserved 0x0000C#19) ∧
    decode 0 (.write 4 0x00022 5#32) = .ok (.wrIgnored 0x00022#19 5#32) ∧
    decode 0x80000 (.read 4 0x80014) = .ok .rdStatus ∧ decode 0x80000 (.read 4 0x00014) = .error (.outsideWindow 0x14) ∧
    decode 0 (.read 2 0x00014) = .error (.badWidth 2) := by decide

/-- Source: opcode_table.json: matches of CMD rows (one byte) and of bus rows (offset bits [18:0]). -/
theorem test_decodeTableWord :
    decodeTableWord 8 0x1 = some (.encode 0#28) ∧ decodeTableWord 8 0xF = some (.rsvd8F 7#3 0#28) ∧
    decodeTableWord 24 0x00014 = some .rdStatus ∧ decodeTableWord 24 0x01FFC = some (.rdObuf 1023#10) ∧
    decodeTableWord 24 0x0000C = some (.rdReserved 0x0000C#19) := by decide

/-! ### Host accesses, one step each -/

/-- Source: HST-1. -/
theorem test_reads_after_reset :
    reads State.reset 0x00000 = some 0x46430007#32 ∧ reads State.reset 0x00004 = some 1#32 ∧
    reads State.reset 0x00008 = some 0x400#32 ∧ reads State.reset 0x00010 = some 0#32 ∧
    reads State.reset 0x00014 = some 0#32 ∧ reads State.reset 0x00018 = some 0x32#32 ∧
    reads State.reset 0x0001C = some 0xA#32 := by decide

/-- Source: HST-1. -/
theorem test_length_reads_after_reset :
    reads State.reset 0x00020 = some 0#32 ∧ reads State.reset 0x00024 = some 0#32 ∧
    reads State.reset 0x00028 = some 0#32 ∧ reads State.reset 0x0002C = some 0#32 := by decide

/-- Source: HST-8: misaligned, reserved, OBUF[257], IBUF[1024], MSG[341]. -/
theorem test_reads_of_nothing_are_zero :
    reads State.reset 0x00016 = some 0#32 ∧ reads State.reset 0x0000C = some 0#32 ∧ reads State.reset 0x01404 = some 0#32 ∧
    reads State.reset 0x41000 = some 0#32 ∧ reads State.reset 0x20554 = some 0#32 := by decide

/-- Source: R23, R24, R28, R29, R33 layouts; the values are the ones of vector RCV-8 with OVERRUN added. -/
theorem test_reads_of_a_result :
    let s := { State.reset with
      result := .ok, windowFull := true, overrun := true, outLen := 257#9, msgCount := 1#16, consumed := 257#16
      msg := [(0, 0x00FE0002#32)], obuf := [(256, 0x0A#8)] }
    reads s 0x00014 = some 0x310#32 ∧ reads s 0x00024 = some 257#32 ∧ reads s 0x00028 = some 1#32 ∧
    reads s 0x0002C = some 257#32 ∧ reads s 0x20000 = some 0x00FE0002#32 ∧ reads s 0x01400 = some 0x0A#32 := by decide

/-- Source: HST-2. -/
theorem test_wrInLen_clamps :
    (stepped (given State.reset (.write 4 0x00020 0xFFFFFFFF#32))).map State.inLen = some 1024#16 := by decide

/-- Source: HST-3. -/
theorem test_wrLatencyMs_low_half :
    (stepped (given State.reset (.write 4 0x00018 0x00012345#32))).map State.latencyMs = some 0x2345#16 := by decide

/-- Source: HST-4. -/
theorem test_wrTimeoutMs_low_half :
    (stepped (given State.reset (.write 4 0x0001C 0xABCD0001#32))).map State.timeoutMs = some 1#16 := by decide

/-- Source: HST-5, HST-6: opcodes 0 and F complete as ILLEGAL_OP at once. -/
theorem test_reserved_opcodes :
    (stepped (given State.reset (.write 4 0x00010 0x0#32))).map State.statusWord = some 0x040#32 ∧
    (stepped (given State.reset (.cmd 0xF#32))).map State.statusWord = some 0x040#32 := by decide

/-- Source: HST-7: 0x13 is DECODE; the first STATUS read gives 0x001. -/
theorem test_wrCmd_ignores_high_bits :
    (stepped (given (loaded [0xAA#8, 0x01#8, 0x0A#8]) (.write 4 0x00010 0x13#32))).map
      (fun t => (t.statusWord, t.phase, t.op, t.len)) = some (0x001#32, .scan, .decode, 3#16) := by decide

/-- Source: HST-9, HST-10: a misaligned write and a write to OUT_LEN change nothing. -/
theorem test_ignored_writes :
    (stepped (given { State.reset with inLen := 3#16 } (.write 4 0x00022 5#32))).map State.inLen = some 3#16 ∧
    (stepped (given State.reset (.write 4 0x00024 9#32))).map State.outLen = some 0#9 := by decide

/-- Source: HST-11. -/
theorem test_wrIbuf_low_byte :
    ((stepped (given State.reset (.write 4 0x40000 0x1FF#32))).bind fun t => reads t 0x40000) = some 0xFF#32 := by decide

/-- Source: HST-12, HST-14. -/
theorem test_wrStatus_w1c :
    (stepped (given { State.reset with result := .ok } (.write 4 0x00014 0x1F1#32))).map State.statusWord = some 0x010#32 ∧
    (stepped (given { State.reset with result := .ok, overrun := true } (.write 4 0x00014 0x200#32))).map
      State.statusWord = some 0x010#32 := by decide

/-- Source: HST-13 (P5's 0x201): the IN_LEN write of a SCAN cycle is dropped with OVERRUN; the scan goes on. -/
theorem test_write_while_scanning_is_dropped :
    (stepped (given (scanning [0xAA#8, 0x01#8, 0x0A#8]) (.write 4 0x00020 0#32))).map
      (fun t => (t.inLen, t.statusWord, t.q)) = some (3#16, 0x201#32, 3#17) := by decide

/-- Source: HST-15: CMD while EMIT is in TX is dropped; the running EMIT sends its next byte. -/
theorem test_cmd_while_sending_is_dropped :
    (stepped (during sending { asks (.write 4 0x00010 2#32) with txReady := true })).map
      (fun t => (t.overrun, t.phase, t.wire)) = some (true, .tx, [0xAA#8, 0x02#8, 0x00#8]) := by decide

/-- Source: HST-16, HST-17: opcode F while busy is not ILLEGAL_OP; ignored writes set no OVERRUN. -/
theorem test_other_writes_while_busy :
    (stepped (given sending (.cmd 0xF#32))).map State.statusWord = some 0x201#32 ∧
    (stepped (given sending (.write 4 0x00000 0#32))).map State.statusWord = some 0x001#32 ∧
    (stepped (given sending (.write 4 0x41F40 7#32))).map State.statusWord = some 0x001#32 := by decide

/-- Source: R192, R230: RECEIVE's entry; RCV-14: without RX_PRESENT it is ILLEGAL_OP. -/
theorem test_receive_entry :
    (stepped (given { State.reset with elapsed := 7#17, wlen := 4#16 } (.cmd 4#32))).map
      (fun t => (t.phase, t.elapsed, t.wlen)) = some (.arm, 0#17, 0#16) ∧
    (stepped (given { State.reset with cfg := { Params.default with rxPresent := false } } (.cmd 4#32))).map
      State.statusWord = some 0x040#32 := by decide

/-- Source: R230: the entries of ENCODE and EMIT. -/
theorem test_encode_and_emit_entry :
    (stepped (given State.reset (.cmd 1#32))).map (fun t => (t.phase, t.op)) = some (.enc, .encode) ∧
    (stepped (given State.reset (.cmd 2#32))).map (fun t => (t.phase, t.op)) = some (.enc, .emit) := by decide

/-- Source: R60: stops for an address outside the window and for a width other than 32 bits. -/
theorem test_requests_outside_the_spec_stop :
    stepped (given State.reset (.read 4 0x80000)) = none ∧ stepped (given State.reset (.write 2 0x00020 0#32)) = none := by
  decide

/-- Source: R300, R301, R303 (EMT-7): reset in TX. -/
theorem test_reset_cycle :
    (stepped (during sending { CycleIn.quiet with rst := true, txReady := true })).map
      (fun t => (t.statusWord, t.wire, t.outLen, t.latencyMs)) = some (0#32, [0xAA#8, 0x02#8], 0#9, 50#16) := by decide

/-! ### The controller's phases, one step each -/

/-- Source: ENC-2 (Scenario A). -/
theorem test_enc_scenario_a :
    (stepped (encoding [0x00#8])).map (fun t => (t.statusWord, t.outLen, t.obufPrefix 4)) =
      some (0x010#32, 4#9, [0xAA#8, 0x02#8, 0x00#8, 0x0A#8]) := by decide

set_option maxRecDepth 4096 in
/-- Source: EMT-3. -/
theorem test_enc_too_large :
    (stepped { State.reset with phase := .enc, op := .emit, inLen := 255#16, rxFifo := [0x0D#8] }).map
      (fun t => (t.statusWord, t.outLen, t.rxFifo, t.wire)) = some (0x020#32, 0#9, [0x0D#8], []) := by decide

/-- Source: EMT-1, EMT-5: the flush takes the stale bytes and the byte of its own cycle. -/
theorem test_flush :
    (stepped (during { State.reset with phase := .flush, op := .emit, rxFifo := [0x0D#8, 0x99#8] }
      { CycleIn.quiet with arrive := [0x22#8] })).map (fun t => (t.phase, t.rxFifo, t.pins.rxFlush)) =
      some (.tx, [], true) := by decide

/-- Source: EMT-1: the last byte of the frame completes EMIT with OUT_LEN 4. -/
theorem test_tx_last_byte :
    (stepped (during { sending with k := 3#9 } { CycleIn.quiet with txReady := true })).map
      (fun t => (t.statusWord, t.outLen, t.pins.tx)) = some (0x010#32, 4#9, some 0x0A#8) := by decide

/-- Source: P2's trace at q = 3 and q = 12. -/
theorem test_scanStep_of_p2 :
    let b := [0x0A#8, 0xAA#8, 0x00#8, 0xAA#8, 0x02#8, 0x01#8, 0x0A#8, 0xAA#8, 0x03#8, 0x13#8, 0x00#8, 0x0A#8, 0xAA#8,
      0x05#8, 0x01#8]
    (let t := scanStep { scanning b with q := 3#17 }
     (t.q, t.n, t.last, t.msg) = (7#17, 1#16, 7#17, [(0, 0x00010005#32)])) ∧
    (scanStep { scanning b with q := 12#17 }).q = 13#17 := by decide

/-- Source: RCV-5a: at elapsed = L an available byte is taken first. -/
theorem test_arm_polls_before_the_deadline :
    (stepped { armed with latencyMs := 3#16, elapsed := 3#17, rxFifo := [0xAA#8, 0x01#8] }).map
      (fun t => (t.phase, t.wlen, t.rxFifo, t.ibufAt 0)) = some (.drain, 1#16, [0x01#8], 0xAA#8) := by decide

/-- Source: RCV-8: a byte available with the window full ends DRAIN and stays in the transport. -/
theorem test_drain_window_full :
    (stepped drainingFull).map (fun t => (t.phase, t.full, t.rxFifo, t.len)) = some (.scan, true, [0x55#8], 257#16) := by
  decide

/-- Source: RCV-6b: idle 3 > T = 2 ends DRAIN; idle 2 does not. -/
theorem test_drain_silence :
    (stepped { draining with timeoutMs := 2#16, idle := 3#17 }).map State.phase = some .scan ∧
    (stepped (during { draining with timeoutMs := 2#16, idle := 2#17 } { CycleIn.quiet with tick := true })).map
      (fun t => (t.phase, t.idle)) = some (.drain, 3#17) := by decide

/-- Source: RCV-8's completion: WINDOW_FULL with OK; RCV-7's: NO_RESPONSE with IN_LEN 3. -/
theorem test_receive_completion :
    (stepped { State.reset with
      phase := .scan, op := .receive, wlen := 3#16, len := 3#16, q := 1#17 }).map
      (fun t => (t.statusWord, t.inLen)) = some (0x030#32, 3#16) ∧
    (finishReceive { State.reset with wlen := 257#16, n := 1#16, last := 257#17, full := true }).statusWord = 0x110#32 := by
  decide

/-! ### The pure functions and the host-program notation -/

/-- Source: ENC-1, ENC-3, ENC-5, ENC-6. -/
theorem test_encodePayload :
    encodePayload [] = .frame [0xAA#8, 0x01#8, 0x0A#8] ∧ encodePayload [0x0A#8] = .frame [0x0A#8] ∧
    encodePayload [0x0A#8, 0x0A#8] = .frame [0xAA#8, 0x03#8, 0x0A#8, 0x0A#8, 0x0A#8] ∧
    encodePayload [0x13#8, 0x02#8] = .frame [0xAA#8, 0x03#8, 0x13#8, 0x02#8, 0x0A#8] := by decide

/-- Source: DEC-9, DEC-11, DEC-12, DEC-16, DEC-23. -/
theorem test_decodeAll :
    (decodeAll [0xAA#8, 0x05#8, 0xAA#8, 0x01#8, 0x0A#8]).descs = [(4, 0)] ∧
    decodeAll [0xAA#8, 0x02#8, 0x01#8, 0x0A#8, 0xAA#8, 0x03#8, 0x07#8] = ⟨[[0x01#8]], 4, [(2, 1)]⟩ ∧
    decodeAll [0xAA#8, 0x04#8, 0xAA#8, 0x0A#8, 0x0A#8, 0x0A#8] = ⟨[[0xAA#8, 0x0A#8, 0x0A#8]], 6, [(2, 3)]⟩ ∧
    (decodeAll [0xAA#8, 0xAA#8, 0x01#8, 0x0A#8]).descs = [(3, 0)] ∧
    (decodeAll [0x0A#8, 0xAA#8, 0x01#8, 0x0A#8, 0x0A#8]).consumed = 4 := by decide

/-- Source: R103 and the encodings of programs P1, P4 and P5. -/
theorem test_host_lines :
    (HostLine.load [0xAA#8, 0x01#8]).expand 0 =
      [.write 4 0x40000 0xAA#32, .write 4 0x40004 1#32, .write 4 0x00020 2#32] ∧
    (HostLine.cmd .receive).expand 0 = [.write 4 0x00010 4#32] ∧
    HostLine.clrOverrun.expand 0 = [.write 4 0x00014 0x200#32] ∧ (HostLine.rdMsg 1).expand 0 = [.read 4 0x20004] ∧
    (HostLine.wr .latencyMs 5#32).expand 0 = [.write 4 0x00018 5#32] := by decide

/-- Source: R90 to R92, R95, R102: ENC-1 is a frame; [0A], LEN = 0, a missing terminator and a byte too many are not. -/
theorem test_isFrame :
    isFrame [0xAA#8, 0x01#8, 0x0A#8] = true ∧ isFrame [0x0A#8] = false ∧ isFrame [0xAA#8, 0x00#8, 0x0A#8] = false ∧
    isFrame [0xAA#8, 0x02#8, 0x00#8, 0x00#8] = false ∧ isFrame [0xAA#8, 0x01#8, 0x0A#8, 0x0A#8] = false ∧
    framePayload [0xAA#8, 0x03#8, 0x13#8, 0x00#8, 0x0A#8] = [0x13#8, 0x00#8] := by decide

/-- Source: program P1 without line 11, one read in each wait, with a two-byte reply (MSG[0] = 0x00020002, Scenario B). -/
theorem test_requestResponse :
    programAccesses 0 (requestResponse [0x00#8] ⟨1, 0x010#32, 1, 1#32, [0x00020002#32]⟩) =
      [.write 4 0x40000 0#32, .write 4 0x00020 1#32, .write 4 0x00010 2#32, .read 4 0x00014, .write 4 0x00010 4#32,
        .read 4 0x00014, .read 4 0x00020, .read 4 0x00028, .read 4 0x20000, .read 4 0x40008, .read 4 0x4000C] := by decide

/-- Source: R306's check of RESULT: after PAYLOAD_TOO_LARGE (0x020) no RECEIVE follows; and R93. -/
theorem test_requestResponse_stops_on_error :
    programAccesses 0 (requestResponse [] ⟨1, 0x020#32, 1, 0#32, []⟩) =
      [.write 4 0x00020 0#32, .write 4 0x00010 2#32, .read 4 0x00014] ∧
    busyIn 0x010#32 = false ∧ messageView [0x13#8, 0x02#8] = some (0x13#8, [0x02#8]) := by decide

/-- Source: R101 with DEC-4. -/
theorem test_messageBytes :
    ({ loaded [0xAA#8, 0x03#8, 0x13#8, 0x00#8, 0x0A#8] with msg := [(0, 0x00020002#32)] }).messageBytes 0 =
      [0x13#8, 0x00#8] := by decide

/-! ### Witnesses: for each statement with hypotheses, a state and operands that meet them, one for each clause -/

theorem test_witness_EncodedInstructionDecodesToItself :
    (Instr.rdIbuf 65535#16).wellFormed = true ∧ (Instr.wrIgnored 0x7FFFD#19 9#32).wellFormed = true ∧
    (Instr.rsvd8F 7#3 0xFFFFFFF#28).wellFormed = true := by decide

theorem test_witness_DecodedRequestEncodesBack :
    decode 0x80000 (.read 4 0xFFFFC) = .ok (.rdIbuf 65535#16) ∧
    decode 0 (.cmd 0xFFFFFFFF#32) = .ok (.rsvd8F 7#3 0xFFFFFFF#28) := by decide

/-- A width of 2 bytes; the address one below the window, and the one just past it. -/
theorem test_witness_RequestsOutsideTheWindowOrWidthAreRejected :
    (2 : Nat) ≠ 4 ∧ (0x7FFFF : Nat) < 0x80000 ∧ 0x80000 + 0x80000 ≤ (0x100000 : Nat) := by decide

theorem test_witness_StepRunsTheDecodedInstruction :
    let s := given sending (.write 4 0x00010 2#32)
    s.cfg.legal = true ∧ s.nextCycle.rst = false ∧ s.nextCycle.host = some (.write 4 0x00010 2#32) ∧
    decode s.cfg.base (.write 4 0x00010 2#32) = .ok (.wrCmd 2#32) := by decide

theorem test_witness_StepWithoutAccessIsTheControllersStep :
    sending.cfg.legal = true ∧ sending.nextCycle.rst = false ∧ sending.nextCycle.host = none := by decide

theorem test_witness_StepStopsExactlyOutsideTheSpec_goes_on :
    sending.cfg.legal = true ∧ sending.nextCycle.covered sending.cfg.base := ⟨by decide, trivial⟩

/-- One witness for each clause that stops: a 2-byte access, an address past the window, IBUF_BYTES below 257. -/
theorem test_witness_StepStopsExactlyOutsideTheSpec_stops :
    State.reset.cfg.legal = true ∧
    (given State.reset (.read 2 0)).nextCycle.host = some (.read 2 0) ∧
    decode State.reset.cfg.base (.read 2 0) = .error (.badWidth 2) ∧
    (given State.reset (.read 4 0x80000)).nextCycle.host = some (.read 4 0x80000) ∧
    decode State.reset.cfg.base (.read 4 0x80000) = .error (.outsideWindow 0x80000) ∧
    ({ State.reset with cfg := { Params.default with ibufBytes := 256 } }).cfg.legal = false := by decide

theorem test_witness_ConstantRegistersReadAndIgnoreWrites :
    ({ sending with cfg := { ibufBytes := 65535, rxPresent := false, base := 0x80000 } }).cfg.legal = true := by decide

/-- The last entry and the first index past it; idle, a busy DECODE, a busy EMIT. -/
theorem test_witness_ObufReadIsStoredByteOrFreeOrZero :
    257 ≤ (257#10).toNat ∧ (256#10).toNat ≤ 256 ∧
    State.reset.phase = .idle ∧ ((scanning []).phase ≠ .idle ∧ (scanning []).op ≠ .encode ∧ (scanning []).op ≠ .emit) ∧
    (sending.phase ≠ .idle ∧ (sending.op = .encode ∨ sending.op = .emit)) := by decide

theorem test_witness_MsgReadIsStoredWordOrFreeOrZero :
    State.reset.cfg.ibufBytes / 3 ≤ (341#15).toNat ∧ (340#15).toNat < State.reset.cfg.ibufBytes / 3 ∧
    State.reset.phase = .idle ∧ (sending.phase ≠ .idle ∧ sending.op ≠ .decode ∧ sending.op ≠ .receive) ∧
    (armed.phase ≠ .idle ∧ (armed.op = .decode ∨ armed.op = .receive)) := by decide

theorem test_witness_IbufReadIsStoredByteOrFreeOrZero :
    State.reset.cfg.ibufBytes ≤ (1024#16).toNat ∧ (1023#16).toNat < State.reset.cfg.ibufBytes ∧
    State.reset.phase = .idle ∧ (sending.phase ≠ .idle ∧ sending.op ≠ .receive) ∧
    (armed.phase ≠ .idle ∧ armed.op = .receive) := by decide

/-- One offset for each clause, at the boundaries of its range. -/
theorem test_witness_ReservedAndMisalignedOffsetsReadZeroIgnoreWrites :
    (0x00001#19).toNat % 4 ≠ 0 ∧ (0x0000C#19 : BitVec 19) = 0x0000C#19 ∧
    (0x30 ≤ (0x00030#19).toNat ∧ (0x00FFF#19).toNat < 0x1000) ∧
    (0x01404 ≤ (0x01404#19).toNat ∧ (0x1FFFC#19).toNat < 0x20000) ∧
    (0x20000 + 4 * State.reset.cfg.msgSlots ≤ (0x20554#19).toNat ∧ (0x3FFFC#19).toNat < 0x40000) ∧
    0x40000 + 4 * State.reset.cfg.ibufBytes ≤ (0x41000#19).toNat := by decide

theorem test_witness_LatencyAndTimeoutWritesTakeTheLowHalf : State.reset.phase = .idle := by decide

theorem test_witness_InLenWriteStoresTheClampedLowHalf : (loaded [0xAA#8]).phase = .idle := by decide

theorem test_witness_IbufWriteStoresOneByte :
    State.reset.phase = .idle ∧ (0#16).toNat < State.reset.cfg.ibufBytes ∧
    (1023#16).toNat < State.reset.cfg.ibufBytes := by decide

theorem test_witness_StatusWriteOnlyClearsOverrun :
    (0x200#32).getLsbD 9 = true ∧ (0x1FF#32).getLsbD 9 = false := by decide

theorem test_witness_WritesWhileBusyAreDroppedWithOverrun :
    sending.phase ≠ .idle ∧ (1023#16).toNat < sending.cfg.ibufBytes ∧ sending.cfg.ibufBytes ≤ (1024#16).toNat ∧
    (0x200#32).getLsbD 9 = true := by decide

/-- A read-only register, the OBUF window, and the last offset below the IBUF window. -/
theorem test_witness_WritesToReadOnlyOffsetsAreIgnored :
    (0x00024#19).toNat < 0x40000 ∧ 0x00024#19 ∉ [0x00010#19, 0x00014#19, 0x00018#19, 0x0001C#19, 0x00020#19] ∧
    (0x01000#19).toNat < 0x40000 ∧ 0x01000#19 ∉ [0x00010#19, 0x00014#19, 0x00018#19, 0x0001C#19, 0x00020#19] ∧
    (0x3FFFF#19).toNat < 0x40000 ∧ 0x3FFFF#19 ∉ [0x00010#19, 0x00014#19, 0x00018#19, 0x0001C#19, 0x00020#19] := by
  decide

theorem test_witness_AcceptedCommandsEnterTheirFirstPhase :
    (loaded [0x00#8]).phase = .idle ∧ (loaded [0x00#8]).cfg.rxPresent = true := by decide

/-- Opcode 0, opcode 5, and opcode 4 without RX_PRESENT. -/
theorem test_witness_ReservedOpcodesOnlySetIllegalOp :
    let s := { State.reset with cfg := { Params.default with rxPresent := false } }
    s.phase = .idle ∧ s.cfg.rxPresent = false ∧ (opcodeOf 0x10#32).toNat = 0 ∧ 5 ≤ (opcodeOf 0x25#32).toNat ∧
    (opcodeOf 0x4#32).toNat = 4 := by decide

theorem test_witness_CmdWordsHighBitsAreIgnored :
    (0x13#32).extractLsb' 0 4 = (0xFFFFFFF3#32).extractLsb' 0 4 := by decide

set_option maxRecDepth 4096 in
/-- 255 bytes, [0A], and 254 bytes. -/
theorem test_witness_EncodeFramesEveryPayloadUpTo254 :
    255 ≤ (List.replicate 255 0x00#8).length ∧ (List.replicate 254 0x00#8).length ≤ 254 ∧
    List.replicate 254 0x00#8 ≠ [0x0A#8] := by decide

theorem test_witness_EncodeIsInjective :
    encodePayload [0xAA#8] = .frame [0xAA#8, 0x02#8, 0xAA#8, 0x0A#8] ∧ [0xAA#8] ≠ [0x0A#8] := by decide

theorem test_witness_TooLargePayloadCompletesWithoutIo :
    let s := { State.reset with phase := .enc, op := .emit, inLen := 255#16 }
    s.phase = .enc ∧ CycleIn.quiet.work ≠ 0 ∧ 255 ≤ s.inLen.toNat := by decide

theorem test_witness_EncodeLeavesTheFrameInObuf :
    let s := { State.reset with phase := .enc, op := .encode, inLen := 254#16 }
    s.phase = .enc ∧ s.op = .encode ∧ CycleIn.quiet.work ≠ 0 ∧ s.inLen.toNat ≤ 254 := by decide

theorem test_witness_EmitGoesFromEncToFlush :
    let s := { State.reset with phase := .enc, op := .emit, inLen := 254#16 }
    s.phase = .enc ∧ s.op = .emit ∧ CycleIn.quiet.work ≠ 0 ∧ s.inLen.toNat ≤ 254 := by decide

theorem test_witness_FlushLastsOneCycleAndDiscardsAllInput :
    let s := during { sending with phase := .flush } { CycleIn.quiet with arrive := [0x22#8] }
    s.cfg.legal = true ∧ s.phase = .flush ∧ s.nextCycle.unattended := by decide

/-- tx_ready = 0 and 1, with the byte before the last and with the last. -/
theorem test_witness_TxOffersObufAtKAndTransfersWhenReady :
    sending.phase = .tx ∧ CycleIn.quiet.txReady = false ∧ ({ CycleIn.quiet with txReady := true }).txReady = true ∧
    sending.k.toNat + 1 ≠ sending.flen.toNat ∧ ({ sending with k := 3#9 }).k.toNat + 1 = sending.flen.toNat := by decide

theorem test_witness_TxSendsEachByteExactlyOnceInOrder :
    sending.phase = .tx ∧ sending.k.toNat < sending.flen.toNat := by decide

/-- EMIT of [00] with tx_ready = 1 in the second and in every later TX cycle. -/
theorem test_witness_EmitTransmitsExactlyItsFrame :
    let cs := CycleIn.quiet :: List.replicate 4 { CycleIn.quiet with txReady := true }
    let s := { loaded [0x00#8] with sched := asks (.cmd (1#28 ++ 2#4)) :: CycleIn.quiet :: CycleIn.quiet :: cs }
    let f := [0xAA#8, 0x02#8, 0x00#8, 0x0A#8]
    s.cfg.legal = true ∧ s.phase = .idle ∧ encodePayload (s.ibufPrefix s.inLen.toNat) = .frame f ∧
    (∀ c ∈ cs, c.unattended) ∧ f.length ≤ (cs.filter CycleIn.txReady).length ∧
    s.sched = { CycleIn.quiet with host := some (.cmd (1#28 ++ 2#4)) } :: CycleIn.quiet :: CycleIn.quiet :: cs := by decide

theorem test_witness_DecodeAllRoundTrip :
    [0xAA#8].length ≤ 254 ∧ [0xAA#8] ≠ [0x0A#8] ∧ encodePayload [0xAA#8] = .frame [0xAA#8, 0x02#8, 0xAA#8, 0x0A#8] ∧
    encodePayload [0x0A#8] = .frame [0x0A#8] := by decide

theorem test_witness_DecodeAllOfFrameThenRest :
    ([] : List Byte).length ≤ 254 ∧ ([] : List Byte) ≠ [0x0A#8] ∧
    encodePayload [] = .frame [0xAA#8, 0x01#8, 0x0A#8] := by decide

/-- A byte that is no header; headers rejected because the buffer ends, by their terminator byte, and with l = 0 (DEC-2, DEC-9, DEC-7). -/
theorem test_witness_DecodeAllSkipsANonHeaderByte :
    0x0A#8 ≠ 0xAA#8 ∧
    ∀ b ∈ [[0xAA#8, 0x01#8], [0xAA#8, 0x05#8, 0xAA#8, 0x01#8, 0x0A#8], [0xAA#8, 0x02#8, 0x00#8, 0x00#8], [0xAA#8, 0x00#8, 0x0A#8]],
      ¬((byteAt b 1).toNat + 1 < b.length ∧ byteAt b ((byteAt b 1).toNat + 1) = 0x0A#8) := by decide

theorem test_witness_TruncatedFrameYieldsNoMessage :
    let p := [0x13#8, 0x02#8]
    let f := [0xAA#8, 0x03#8, 0x13#8, 0x02#8, 0x0A#8]
    p.length ≤ 254 ∧ p ≠ [0x0A#8] ∧ encodePayload p = .frame f ∧ 4 < f.length ∧ 0xAA#8 ∉ p ∧ p.length + 1 ≠ 0xAA := by
  decide

/-- A DECODE and a RECEIVE at their SCAN entry. -/
theorem test_witness_ScanPhaseComputesDecodeAll :
    ∀ o ∈ [Op.decode, Op.receive],
      let s := { scanning [0xAA#8, 0x01#8, 0x0A#8] with op := o, wlen := 3#16 }
      s.cfg.legal = true ∧ s.phase = .scan ∧ s.q = 0#17 ∧ s.n = 0#16 ∧ s.last = 0#17 ∧
      s.len.toNat ≤ s.cfg.ibufBytes ∧ max (s.len.toNat - 1) 1 ≤ 2 := by decide

/-- The same scan in one cycle of four steps, and in a stall and two cycles of two steps with a byte arriving. -/
theorem test_witness_ScanIsIndependentOfItsCycleCount :
    let s := scanning [0xAA#8, 0x01#8, 0x0A#8]
    let cs := [{ CycleIn.quiet with work := 4 }]
    let ds := [{ CycleIn.quiet with work := 0 }, { CycleIn.quiet with work := 2 },
      { CycleIn.quiet with work := 2, arrive := [0x55#8], tick := true }]
    s.cfg.legal = true ∧ s.phase = .scan ∧ s.q.toNat ≤ s.len.toNat ∧ (∀ c ∈ cs, c.unattended) ∧
    (∀ c ∈ ds, c.unattended) ∧ s.len.toNat - s.q.toNat + 1 ≤ (cs.map CycleIn.work).sum ∧
    s.len.toNat - s.q.toNat + 1 ≤ (ds.map CycleIn.work).sum := by decide

theorem test_witness_ScanFinishesWithinItsBuffer :
    let s := { scanning [0x00#8, 0x00#8, 0x00#8] with q := 1#17 }
    s.phase = .scan ∧ s.q.toNat ≤ s.len.toNat ∧ s.len.toNat - s.q.toNat + 1 ≤ 3 := by decide

/-- DECODE of one frame in a stalled cycle and a cycle of two scan steps. -/
theorem test_witness_DecodeReportsDecodeAllOfIbuf :
    let cs := [{ CycleIn.quiet with work := 0 }, { CycleIn.quiet with work := 2 }]
    let s := { loaded [0xAA#8, 0x01#8, 0x0A#8] with sched := asks (.cmd (1#28 ++ 3#4)) :: cs }
    s.Inv ∧ s.phase = .idle ∧ (∀ c ∈ cs, c.unattended) ∧ max (s.inLen.toNat - 1) 1 ≤ (cs.map CycleIn.work).sum ∧
    s.sched = { CycleIn.quiet with host := some (.cmd (1#28 ++ 3#4)) } :: cs := by decide

/-- A byte at the deadline; the deadline with no byte; no deadline yet, with and without a tick. -/
theorem test_witness_ArmPollsThenTestsTheDeadlineThenTicks :
    let late := { armed with elapsed := 50#17 }
    ({ late with rxFifo := [0xAA#8] }).phase = .arm ∧ ({ late with rxFifo := [0xAA#8] }).rxFifo = [0xAA#8] ∧
    (late.phase = .arm ∧ late.rxFifo = [] ∧ late.latencyMs.toNat ≤ late.elapsed.toNat) ∧
    (armed.phase = .arm ∧ armed.rxFifo = [] ∧ armed.elapsed.toNat < armed.latencyMs.toNat) ∧
    ({ CycleIn.quiet with tick := true }).tick = true ∧ CycleIn.quiet.tick = false := by decide

/-- A byte with one place left; a byte with the window full; silence just beyond T; silence of exactly T. -/
theorem test_witness_DrainPollsThenTestsSilenceThenTicks :
    let last := { drainingFull with wlen := 256#16 }
    (last.phase = .drain ∧ last.rxFifo = [0x55#8] ∧ last.wlen.toNat < last.cfg.ibufBytes) ∧
    (drainingFull.phase = .drain ∧ drainingFull.rxFifo ≠ [] ∧ drainingFull.cfg.ibufBytes ≤ drainingFull.wlen.toNat) ∧
    (let s := { draining with idle := 11#17 }
     s.phase = .drain ∧ s.rxFifo = [] ∧ s.timeoutMs.toNat < s.idle.toNat) ∧
    (let s := { draining with idle := 10#17 }
     s.phase = .drain ∧ s.rxFifo = [] ∧ s.idle.toNat ≤ s.timeoutMs.toNat) ∧
    ({ CycleIn.quiet with tick := true }).tick = true ∧ CycleIn.quiet.tick = false := by decide

theorem test_witness_WindowIsAPrefixOfTheReceivedStream :
    ({ armed with rxFifo := [0xAA#8] }).Inv ∧ armed.phase = .arm ∧
    ({ draining with rxFifo := [0x01#8] }).Inv ∧ draining.phase = .drain := by decide

theorem test_witness_ReceiveTakesExactlyThePreloadedBytes :
    let s := { State.reset with
      timeoutMs := 2#16, rxFifo := [0x01#8, 0x02#8, 0x03#8]
      sched := asks (.cmd (1#28 ++ 4#4)) :: List.replicate 7 { CycleIn.quiet with tick := true } }
    s.cfg.legal = true ∧ s.cfg.rxPresent = true ∧ s.phase = .idle ∧ s.rxFifo ≠ [] ∧ s.rxFifo.length ≤ s.cfg.ibufBytes ∧
    s.sched = { CycleIn.quiet with host := some (.cmd (1#28 ++ 4#4)) } ::
      List.replicate (s.rxFifo.length + s.timeoutMs.toNat + 2) { CycleIn.quiet with tick := true } := by decide

theorem test_witness_ReceiveOfSilenceReportsNoResponse :
    let s := { State.reset with
      latencyMs := 5#16, sched := asks (.cmd (1#28 ++ 4#4)) :: List.replicate 7 { CycleIn.quiet with tick := true } }
    s.cfg.legal = true ∧ s.cfg.rxPresent = true ∧ s.phase = .idle ∧ s.rxFifo = [] ∧
    s.sched = { CycleIn.quiet with host := some (.cmd (1#28 ++ 4#4)) } ::
      List.replicate (s.latencyMs.toNat + 2) { CycleIn.quiet with tick := true } := by decide

theorem test_witness_ReceiveCompletionReportsTheWindow :
    let s := { State.reset with phase := .scan, op := .receive, wlen := 3#16, len := 3#16, q := 3#17, n := 1#16, last := 3#17 }
    s.phase = .scan ∧ s.op = .receive ∧ CycleIn.quiet.work ≠ 0 ∧ s.len.toNat < s.q.toNat + 3 := by decide

theorem test_witness_ResultRegistersChangeOnlyAtCompletion :
    ∃ t, step sending = .next t ∧ sending.nextCycle.rst = false ∧ t.phase ≠ .idle := ⟨_, rfl, by decide, by decide⟩

theorem test_witness_OperationInputsAreFixedWhileBusy :
    ∃ t, step draining = .next t ∧ draining.nextCycle.rst = false ∧ draining.phase ≠ .idle :=
  ⟨_, rfl, by decide, by decide⟩

theorem test_witness_TransmitStreamGrowsOnlyInTx :
    ∃ t, step (during sending { CycleIn.quiet with txReady := true }) = .next t ∧ t.wire ≠ sending.wire :=
  ⟨_, rfl, by decide⟩

theorem test_witness_TransportInputIsOnlyPoppedOrFlushed :
    ∃ t, step (during armed { CycleIn.quiet with arrive := [0xAA#8] }) = .next t ∧ t.pins.rxPop = true :=
  ⟨_, rfl, by decide⟩

theorem test_witness_OverrunIsClearedOnlyByW1cOrReset :
    let s := given { State.reset with overrun := true } (.write 4 0x00014 0x200#32)
    ∃ t, step s = .next t ∧ s.overrun = true ∧ t.overrun = false := ⟨_, rfl, by decide, by decide⟩

theorem test_witness_ResetCycleRestoresEveryResetValue :
    let s := during sending { CycleIn.quiet with rst := true }
    s.cfg.legal = true ∧ s.nextCycle.rst = true ∧ s.nextCycle.host = none := by decide

/-- A CMD row, writes, reads of registers, of the last entry of each array, past each array, and of a reserved offset. -/
theorem test_witness_HostAccessInAResetCycle :
    ∀ p ∈ [(Request.cmd 2#32, Instr.emit 0#28), (.write 4 0x00010 2#32, .wrCmd 2#32),
        (.write 4 0x40000 1#32, .wrIbuf 0#16 1#32), (.read 4 0x00000, .rdId), (.read 4 0x00014, .rdStatus),
        (.read 4 0x00018, .rdLatencyMs), (.read 4 0x01400, .rdObuf 256#10), (.read 4 0x20550, .rdMsg 340#15),
        (.read 4 0x40FFC, .rdIbuf 1023#16), (.read 4 0x01404, .rdObuf 257#10), (.read 4 0x20554, .rdMsg 341#15),
        (.read 4 0x41000, .rdIbuf 1024#16), (.read 4 0x0000C, .rdReserved 0x0000C#19)],
      let s := during sending { asks p.1 with rst := true }
      s.cfg.legal = true ∧ s.nextCycle.rst = true ∧ s.nextCycle.host = some p.1 ∧ decode s.cfg.base p.1 = .ok p.2 := by
  decide

theorem test_witness_EveryStepKeepsTheInvariant :
    ∃ t, sending.Inv ∧ step (during sending { CycleIn.quiet with txReady := true }) = .next t := ⟨_, by decide, rfl⟩

theorem test_witness_NoStepChangesTheParameters : ∃ t, step drainingFull = .next t := ⟨_, rfl⟩

end Sys2Proof.Tests
end

section
/-!
PROOFS. The accesses to the constant registers ID, CAPS and IBUF_SIZE (spec 10_state.md R21, R22, R34): where a bus
access lands in the window, what its row answers, and the values of the two registers that depend on the parameters.
-/

namespace Sys2Proof

/-! ### The window and its rows -/

/-- The window is as wide as an offset has values, so adding an offset to BASE is undone by the decoder (R60). -/
@[simp] theorem windowOffset_base_add (base : Nat) (off : BitVec 19) :
    windowOffset base 4 (base + off.toNat) = .ok off := by
  have hlt : off.toNat < Config.windowBytes := off.isLt
  simp [windowOffset, hlt]

/-- A 32-bit write at BASE plus an offset is the offset's write row, wherever the window sits (R60, R61). -/
theorem decode_write_base_add (base : Nat) (off : BitVec 19) (v : Word) :
    decode base (.write 4 (base + off.toNat) v) = .ok (decodeWrite off v) := by
  simp [decode]

/-- An offset that no writable row matches is the row WR_IGNORED (R61, R238). -/
theorem decodeWrite_of_no_row {off : BitVec 19} (v : Word) (h : offHasWriteRow off = false) :
    decodeWrite off v = .wrIgnored off v := by
  simp only [offHasWriteRow, offInIbuf, Bool.or_eq_false_iff, List.contains_eq_mem, decide_eq_false_iff_not,
    List.mem_cons, List.not_mem_nil, or_false, not_or] at h
  obtain ⟨⟨hCmd, hStatus, hLatency, hTimeout, hInLen⟩, hIbuf⟩ := h
  have hWindow : ¬(off.extractLsb' 0 2 = 0#2 ∧ off.extractLsb' 18 1 = 1#1) := by simpa using hIbuf
  rw [decodeWrite, if_neg hCmd, if_neg hStatus, if_neg hLatency, if_neg hTimeout, if_neg hInLen, if_neg hWindow]

namespace Machine

/-! ### What the rows do, in every phase -/

theorem exec_rdId (s : State) : exec .rdId s = .next (s.respond Config.idWord) := rfl
theorem exec_rdCaps (s : State) : exec .rdCaps s = .next (s.respond s.capsWord) := rfl
theorem exec_rdIbufSize (s : State) : exec .rdIbufSize s = .next (s.respond s.ibufSizeWord) := rfl
theorem exec_wrIgnored (off : BitVec 19) (v : Word) (s : State) : exec (.wrIgnored off v) s = .next s := rfl

/-! ### The values that depend on the parameters -/

/-- CAPS holds RX_PRESENT in bit 0 and 0 above it (R22). -/
theorem capsWord_eq (s : State) : s.capsWord = if s.cfg.rxPresent then 1#32 else 0#32 := by
  cases hrx : s.cfg.rxPresent <;> simp [State.capsWord, hrx]

/-- Legal parameters fit IBUF_BYTES into the 16 bits of IBUF_SIZE (R7, R34). -/
theorem ibufBytes_lt_of_legal {p : Params} (h : p.legal = true) : p.ibufBytes < 2 ^ 16 := by
  simp only [Params.legal, decide_eq_true_eq] at h
  omega

/-- IBUF_SIZE reads as IBUF_BYTES itself: the register's 16 bits lose nothing of a legal one (R34). -/
theorem ibufSizeWord_eq {s : State} (h : s.cfg.legal = true) :
    s.ibufSizeWord = BitVec.ofNat 32 s.cfg.ibufBytes :=
  BitVec.setWidth_ofNat_of_le_of_lt (by decide) (ibufBytes_lt_of_legal h)

/-- Settles O8: the three reads answer their words, and the three offsets have no writable row. -/
theorem constantRegistersReadAndIgnoreWrites : Obligations.ConstantRegistersReadAndIgnoreWrites := by
  intro s v hlegal
  have noWriteRow : ∀ off ∈ [0x00000#19, 0x00004#19, 0x00008#19], offHasWriteRow off = false := by
    simp [offHasWriteRow, offInIbuf]
  refine ⟨exec_rdId s, ?caps, ?ibufSize, fun off hoff => ⟨?row, exec_wrIgnored off v s⟩⟩
  case caps => rw [exec_rdCaps, capsWord_eq, State.respond]
  case ibufSize => rw [exec_rdIbufSize, ibufSizeWord_eq hlegal, State.respond]
  case row => rw [decode_write_base_add, decodeWrite_of_no_row v (noWriteRow off hoff)]

end Machine

end Sys2Proof
end

section
/-!
PROOFS. The emitter's function `encode` (spec 40_emitter.md R120): one equation per branch of its pseudocode.
-/

namespace Sys2Proof.Machine

/-! ### The three results of `encode` -/

/-- The length byte cannot hold 1 + n for a payload of 255 bytes or more (R122). -/
theorem encodePayload_of_too_large {p : List Byte} (h : 255 ≤ p.length) :
    encodePayload p = .payloadTooLarge := by
  have hlimit : p.length + 1 > Config.maxLen := Nat.lt_succ_of_le h
  rw [encodePayload, if_pos hlimit]

/-- The special case of R124: one byte, so the size test that comes before it does not apply. -/
theorem encodePayload_singleton_term : encodePayload [Config.term] = .frame [Config.term] := by
  have hlimit : ¬[Config.term].length + 1 > Config.maxLen := by decide
  rw [encodePayload, if_neg hlimit, if_pos rfl]

/-- Every other payload is framed: header, length byte 1 + n, payload, terminator (R120). -/
theorem encodePayload_of_framed {p : List Byte} (hlen : p.length ≤ 254) (hterm : p ≠ [Config.term]) :
    encodePayload p = .frame ([Config.hdr, BitVec.ofNat 8 (p.length + 1)] ++ p ++ [Config.term]) := by
  have hlimit : ¬p.length + 1 > Config.maxLen := Nat.not_lt.mpr (Nat.succ_le_succ hlen)
  rw [encodePayload, if_neg hlimit, if_neg hterm]

/-- Settles O25: each clause is one branch of `encode`. -/
theorem encodeFramesEveryPayloadUpTo254 : Obligations.EncodeFramesEveryPayloadUpTo254 := by
  intro p
  refine ⟨encodePayload_of_too_large, ?special, encodePayload_of_framed⟩
  case special =>
    rintro rfl
    exact encodePayload_singleton_term

end Sys2Proof.Machine
end

section
/-!
PROOFS. The scanner's function `decode_all` (spec 41_scanner.md R151): what each position of the search does, what the
loop makes of a buffer's suffix, and from these the results for a frame, for a frame before other bytes, and for a byte
that starts no frame (R167 to R169).
-/

namespace Sys2Proof.Machine

/-! ### Bytes and slices behind a prefix -/

theorem byteAt_append_add (a b : List Byte) (i : Nat) : byteAt (a ++ b) (a.length + i) = byteAt b i := by
  rw [byteAt, byteAt, List.getD_append_right _ _ _ _ (Nat.le_add_right ..), Nat.add_sub_cancel_left]

theorem slice_append_add (a b : List Byte) (lo hi : Nat) :
    slice (a ++ b) (a.length + lo) (a.length + hi) = slice b lo hi := by
  rw [slice, slice, List.drop_length_add_append, Nat.add_sub_add_left]

theorem slice_length {b : List Byte} {lo hi : Nat} (h : hi ≤ b.length) : (slice b lo hi).length = hi - lo := by
  rw [slice, List.length_take, List.length_drop]
  omega

/-! ### One position of the search -/

/-- The length byte of a candidate at `q` (R153). -/
def lenAt (b : List Byte) (q : Nat) : Nat := (byteAt b (q + 1)).toNat

/-- The header is at `q` and the candidate there passes pass 1 (R152, R153). -/
def frameAt (b : List Byte) (q : Nat) : Prop :=
  byteAt b q = Config.hdr ∧ q + lenAt b q + 1 < b.length ∧ byteAt b (q + lenAt b q + 1) = Config.term

/-- The terminator of a candidate with length byte 0 would be that length byte itself (R154). -/
theorem lenAt_pos_of_frameAt {b : List Byte} {q : Nat} (h : frameAt b q) : 0 < lenAt b q := by
  obtain ⟨-, -, hterm⟩ := h
  by_contra hzero
  have hlen : lenAt b q = 0 := Nat.eq_zero_of_not_pos hzero
  rw [hlen, Nat.add_zero] at hterm
  rw [lenAt, hterm] at hlen
  exact absurd hlen (by decide)

theorem lenAt_append_add (a b : List Byte) (q : Nat) : lenAt (a ++ b) (a.length + q) = lenAt b q := by
  rw [lenAt, Nat.add_assoc, byteAt_append_add, lenAt]

/-- Whether a frame starts at a position depends on the bytes from there on only. -/
theorem frameAt_append_add (a b : List Byte) (q : Nat) : frameAt (a ++ b) (a.length + q) ↔ frameAt b q := by
  simp only [frameAt, lenAt_append_add, Nat.add_assoc, byteAt_append_add, List.length_append, Nat.add_lt_add_iff_left]

/-! ### The loop of `decode_all` -/

/-- The stop rule (R152). -/
theorem collectFrames_of_short {b : List Byte} {q : Nat} (fuel : Nat) (h : b.length < q + Config.minFrame) :
    collectFrames b fuel q = [] := by
  cases fuel with
  | zero => rfl
  | succ n => rw [collectFrames, if_pos h]

/-- A candidate that passes is collected, and the search goes on after its terminator (R157). -/
theorem collectFrames_of_frameAt {b : List Byte} {q : Nat} (fuel : Nat) (h : frameAt b q) :
    collectFrames b (fuel + 1) q = (q, lenAt b q) :: collectFrames b fuel (q + lenAt b q + 2) := by
  have hpos := lenAt_pos_of_frameAt h
  obtain ⟨hhdr, hfits, hterm⟩ := h
  have hlong : ¬b.length < q + Config.minFrame := by simp only [Config.minFrame]; omega
  rw [collectFrames, if_neg hlong, if_neg (not_not.mpr hhdr)]
  exact if_pos ⟨hfits, hterm⟩

/-- Any other position is passed over by one byte (R152, R155); where the stop rule applies, it also
applies one byte on. -/
theorem collectFrames_of_not_frameAt {b : List Byte} {q : Nat} (fuel : Nat) (h : ¬frameAt b q) :
    collectFrames b (fuel + 1) q = collectFrames b fuel (q + 1) := by
  by_cases hshort : b.length < q + Config.minFrame
  · rw [collectFrames_of_short _ hshort, collectFrames_of_short _ (by omega)]
  · rw [collectFrames, if_neg hshort]
    by_cases hhdr : byteAt b q = Config.hdr
    · rw [if_neg (not_not.mpr hhdr)]
      exact if_neg fun hpass => h ⟨hhdr, hpass⟩
    · rw [if_pos hhdr]

/-- Once the bound covers the rest of the buffer, a larger bound collects nothing more (R164). -/
theorem collectFrames_fuel_add (b : List Byte) (extra : Nat) {fuel q : Nat} (h : b.length ≤ q + fuel) :
    collectFrames b (fuel + extra) q = collectFrames b fuel q := by
  induction fuel generalizing q with
  | zero =>
    have hshort : b.length < q + Config.minFrame := by simp only [Config.minFrame]; omega
    rw [collectFrames_of_short _ hshort, collectFrames_of_short _ hshort]
  | succ n ih =>
    rw [Nat.succ_add]
    by_cases hf : frameAt b q
    · rw [collectFrames_of_frameAt _ hf, collectFrames_of_frameAt _ hf, ih (by omega)]
    · rw [collectFrames_of_not_frameAt _ hf, collectFrames_of_not_frameAt _ hf, ih (by omega)]

/-- A candidate found in a buffer's suffix, at its place in the whole buffer: `n` bytes further on. -/
def shiftBy (n : Nat) (c : Nat × Nat) : Nat × Nat := (n + c.1, c.2)

/-- The search from a position on finds what the search of the bytes from there on finds. -/
theorem collectFrames_append_add (a b : List Byte) (fuel q : Nat) :
    collectFrames (a ++ b) fuel (a.length + q) = (collectFrames b fuel q).map (shiftBy a.length) := by
  induction fuel generalizing q with
  | zero => rfl
  | succ n ih =>
    by_cases hf : frameAt b q
    · rw [collectFrames_of_frameAt _ hf, collectFrames_of_frameAt _ ((frameAt_append_add a b q).mpr hf),
        lenAt_append_add, List.map_cons, ← ih]
      simp only [shiftBy, Nat.add_assoc]
    · rw [collectFrames_of_not_frameAt _ hf, collectFrames_of_not_frameAt _ (mt (frameAt_append_add a b q).mp hf),
        ← ih, Nat.add_assoc]

/-- Behind a prefix, any bound that covers the rest collects the frames of the rest, shifted by the prefix's length. -/
theorem collectFrames_append {a b : List Byte} {fuel : Nat} (h : b.length ≤ fuel) :
    collectFrames (a ++ b) fuel a.length = (collectFrames b b.length 0).map (shiftBy a.length) := by
  obtain ⟨extra, rfl⟩ := Nat.exists_eq_add_of_le h
  rw [← collectFrames_fuel_add b extra (Nat.le_add_left b.length 0)]
  exact collectFrames_append_add a b (b.length + extra) 0

/-- What is collected: places where a frame starts, with their length bytes. -/
theorem frameAt_of_mem_collectFrames {b : List Byte} {fuel q : Nat} {c : Nat × Nat}
    (h : c ∈ collectFrames b fuel q) :
    frameAt b c.1 ∧ c.2 = lenAt b c.1 := by
  induction fuel generalizing q with
  | zero => cases h
  | succ n ih =>
    by_cases hf : frameAt b q
    · rw [collectFrames_of_frameAt _ hf, List.mem_cons] at h
      obtain rfl | hrest := h
      · exact ⟨hf, rfl⟩
      · exact ih hrest
    · rw [collectFrames_of_not_frameAt _ hf] at h
      exact ih h

/-! ### The result of `decode_all` -/

/-- Pass 1 puts the terminator inside the buffer, so the slice that pass 2 measures is whole (R156). -/
theorem filter_lengthConsistent_collectFrames (b : List Byte) (fuel q : Nat) :
    (collectFrames b fuel q).filter (lengthConsistent b) = collectFrames b fuel q := by
  refine List.filter_eq_self.mpr fun c hc => ?_
  obtain ⟨⟨-, hfits, -⟩, hlen⟩ := frameAt_of_mem_collectFrames hc
  rw [← hlen] at hfits
  rw [lengthConsistent, slice_length hfits, beq_iff_eq]
  omega

/-- What `decode_all` returns for the candidates it keeps (R157, R158). -/
def decodedOf (b : List Byte) (cands : List (Nat × Nat)) : Decoded :=
  { msgs := cands.map fun c => slice b (c.1 + 2) (c.1 + c.2 + 1)
    consumed := lastEnd cands
    descs := cands.map fun c => (c.1 + 2, c.2 - 1) }

theorem decodeAll_eq (b : List Byte) : decodeAll b = decodedOf b (collectFrames b b.length 0) := by
  simp only [decodeAll, filter_lengthConsistent_collectFrames, decodedOf]

theorem decodedOf_nil (b : List Byte) : decodedOf b [] = { msgs := [], consumed := 0, descs := [] } := rfl

theorem lastEnd_eq_zero_iff (cands : List (Nat × Nat)) : lastEnd cands = 0 ↔ cands = [] := by
  cases h : cands.getLast? with
  | none => simp [lastEnd, List.getLast?_eq_none_iff.mp h]
  | some c =>
    have hne : cands ≠ [] := by rintro rfl; cases h
    simp [lastEnd, h, hne]

/-- The message and the descriptor of a candidate come first; `consumed` is its end only when nothing follows. -/
theorem decodedOf_cons (b : List Byte) (c : Nat × Nat) (cands : List (Nat × Nat)) :
    decodedOf b (c :: cands) =
      { msgs := slice b (c.1 + 2) (c.1 + c.2 + 1) :: (decodedOf b cands).msgs
        consumed := if cands = [] then c.1 + c.2 + 2 else (decodedOf b cands).consumed
        descs := (c.1 + 2, c.2 - 1) :: (decodedOf b cands).descs } := by
  cases cands with
  | nil => rfl
  | cons d ds => simp [decodedOf, lastEnd, List.getLast?_cons_cons]

theorem lastEnd_map_shiftBy (n : Nat) (cands : List (Nat × Nat)) :
    lastEnd (cands.map (shiftBy n)) = if cands = [] then 0 else lastEnd cands + n := by
  cases h : cands.getLast? with
  | none => simp [List.getLast?_eq_none_iff.mp h, lastEnd]
  | some c =>
    have hne : cands ≠ [] := by rintro rfl; cases h
    rw [if_neg hne, lastEnd, lastEnd, List.getLast?_map, h]
    simp only [Option.map_some, shiftBy]
    omega

/-- Behind a prefix the messages are the same and the offsets are shifted by its length. -/
theorem decodedOf_append (a b : List Byte) (cands : List (Nat × Nat)) :
    decodedOf (a ++ b) (cands.map (shiftBy a.length)) =
      { msgs := (decodedOf b cands).msgs
        descs := (decodedOf b cands).descs.map fun d => (d.1 + a.length, d.2)
        consumed := if cands = [] then 0 else (decodedOf b cands).consumed + a.length } := by
  have hstart (c : Nat × Nat) : a.length + c.1 + 2 = a.length + (c.1 + 2) := Nat.add_assoc ..
  have hend (c : Nat × Nat) : a.length + c.1 + c.2 + 1 = a.length + (c.1 + c.2 + 1) := by omega
  simp only [decodedOf, lastEnd_map_shiftBy, List.map_map, Function.comp_def, shiftBy, hstart, hend, slice_append_add]
  simp only [Nat.add_comm a.length]

/-! ### A first byte that starts no frame -/

/-- The first position is passed over, and the rest of the scan is the scan of `r` behind a prefix of one byte
(R155, R169). -/
theorem decodeAll_cons_of_not_frameAt {x : Byte} {r : List Byte} (h : ¬frameAt (x :: r) 0) :
    decodeAll (x :: r) =
      { msgs := (decodeAll r).msgs
        descs := (decodeAll r).descs.map fun d => (d.1 + 1, d.2)
        consumed := if (decodeAll r).consumed = 0 then 0 else (decodeAll r).consumed + 1 } := by
  have hcands : collectFrames (x :: r) (x :: r).length 0 = (collectFrames r r.length 0).map (shiftBy 1) :=
    (collectFrames_of_not_frameAt r.length h).trans (collectFrames_append (a := [x]) le_rfl)
  have hconsumed : (decodeAll r).consumed = 0 ↔ collectFrames r r.length 0 = [] := by
    rw [decodeAll_eq, decodedOf, lastEnd_eq_zero_iff]
  simp only [hconsumed]
  rw [decodeAll_eq, hcands, decodeAll_eq r]
  exact decodedOf_append [x] r _

/-- Settles O36: at a byte that is no header, or at a header whose candidate fails pass 1, no frame starts. -/
theorem decodeAllSkipsANonHeaderByte : Obligations.DecodeAllSkipsANonHeaderByte := by
  intro x r b l hreject
  refine decodeAll_cons_of_not_frameAt ?_
  rintro ⟨hhdr, hpass⟩
  rw [Nat.zero_add] at hpass
  exact hreject.elim (· hhdr) (· hpass)

/-! ### A frame, alone and before other bytes -/

/-- The frame of a payload: header, length byte, payload, terminator (R90). -/
def frameOf (p : List Byte) : List Byte := [Config.hdr, BitVec.ofNat 8 (p.length + 1)] ++ p ++ [Config.term]

theorem eq_frameOf_of_encodePayload {p f : List Byte} (hlen : p.length ≤ 254) (hterm : p ≠ [Config.term])
    (h : encodePayload p = .frame f) : f = frameOf p :=
  Encoded.frame.inj (h.symm.trans (encodePayload_of_framed hlen hterm))

theorem frameOf_length (p : List Byte) : (frameOf p).length = p.length + 3 := by simp [frameOf]

/-- A payload of at most 254 bytes leaves the length byte room for its length plus one (R122). -/
theorem lenAt_frameOf_append {p : List Byte} (r : List Byte) (hlen : p.length ≤ 254) :
    lenAt (frameOf p ++ r) 0 = p.length + 1 := by
  have hmod : (p.length + 1) % 256 = p.length + 1 := Nat.mod_eq_of_lt (by omega)
  simpa [lenAt, byteAt, frameOf] using hmod

/-- A frame before any bytes passes pass 1, whatever its payload holds. -/
theorem frameAt_frameOf_append {p : List Byte} (r : List Byte) (hlen : p.length ≤ 254) :
    frameAt (frameOf p ++ r) 0 := by
  rw [frameAt, lenAt_frameOf_append r hlen]
  refine ⟨rfl, ?fits, ?term⟩
  case fits =>
    rw [List.length_append, frameOf_length]
    omega
  case term => simp [byteAt, frameOf]

theorem slice_frameOf_append (p r : List Byte) : slice (frameOf p ++ r) 2 (p.length + 2) = p := by
  simp [slice, frameOf]

/-- The frame is the first candidate, and the rest of the scan is the scan of `r` behind the frame (R168). -/
theorem collectFrames_frameOf_append {p : List Byte} (r : List Byte) (hlen : p.length ≤ 254) :
    collectFrames (frameOf p ++ r) (frameOf p ++ r).length 0 =
      (0, p.length + 1) :: (collectFrames r r.length 0).map (shiftBy (frameOf p).length) := by
  have hfuel : (frameOf p ++ r).length = p.length + 2 + r.length + 1 := by
    rw [List.length_append, frameOf_length]
    omega
  have hnext : 0 + (p.length + 1) + 2 = (frameOf p).length := by
    rw [frameOf_length]
    omega
  rw [hfuel, collectFrames_of_frameAt _ (frameAt_frameOf_append r hlen), lenAt_frameOf_append r hlen, hnext,
    collectFrames_append (Nat.le_add_left ..)]

theorem decodeAll_msgs_eq_nil_iff (b : List Byte) : (decodeAll b).msgs = [] ↔ collectFrames b b.length 0 = [] := by
  rw [decodeAll_eq]
  exact List.map_eq_nil_iff

/-- Settles O35: the frame gives the first message, and the rest of the result is that of `r`, shifted. -/
theorem decodeAllOfFrameThenRest : Obligations.DecodeAllOfFrameThenRest := by
  intro p f r hlen hterm henc
  obtain rfl := eq_frameOf_of_encodePayload hlen hterm henc
  simp only [decodeAll_msgs_eq_nil_iff]
  rw [decodeAll_eq (frameOf p ++ r), collectFrames_frameOf_append r hlen, decodedOf_cons, decodedOf_append,
    ← decodeAll_eq]
  by_cases hrest : collectFrames r r.length 0 = []
  · simp [hrest, slice_frameOf_append, frameOf_length]
  · simp [hrest, slice_frameOf_append, Nat.add_comm (frameOf p).length]

/-- Settles O34: the frame alone is the frame before no bytes; the unframed [0A] is too short to hold a frame. -/
theorem decodeAllRoundTrip : Obligations.DecodeAllRoundTrip := by
  refine ⟨fun p f hlen hterm henc => ?framed, fun f henc => ?unframed⟩
  case framed =>
    have hlength : f.length = p.length + 3 := by rw [eq_frameOf_of_encodePayload hlen hterm henc, frameOf_length]
    have hempty : decodeAll [] = { msgs := [], consumed := 0, descs := [] } := rfl
    have hframe := decodeAllOfFrameThenRest p f [] hlen hterm henc
    rwa [List.append_nil, hempty, hlength] at hframe
  case unframed =>
    obtain rfl : [Config.term] = f := Encoded.frame.inj (encodePayload_singleton_term.symm.trans henc)
    rw [decodeAll_eq, collectFrames_of_short _ (by decide), decodedOf_nil]

end Sys2Proof.Machine
end

section
/-!
PROOFS. The host's writes (spec 43_host_access.md R231, R235, R238): which rows pass the busy gate and with what effect, what
the gate makes of them while an operation runs, and the offsets below the IBUF window that no writable row matches.
-/

namespace Sys2Proof

/-! ### Offsets without a writable row -/

/-- The IBUF window is the upper half of the register window (R61), so its offsets have bit 18 set. -/
theorem offInIbuf_of_lt {off : BitVec 19} (h : off.toNat < 0x40000) : offInIbuf off = false := by
  have hbit : off.extractLsb' 18 1 = 0#1 := by
    apply BitVec.eq_of_toNat_eq
    rw [BitVec.extractLsb'_toNat, Nat.shiftRight_eq_div_pow, Nat.div_eq_of_lt h]
    rfl
  simp [offInIbuf, hbit]

/-- Below the IBUF window the writable offsets are the five registers CMD to IN_LEN (R61). -/
theorem offHasWriteRow_of_lt {off : BitVec 19} (h : off.toNat < 0x40000)
    (hreg : off ∉ [0x00010#19, 0x00014#19, 0x00018#19, 0x0001C#19, 0x00020#19]) : offHasWriteRow off = false := by
  rw [offHasWriteRow, offInIbuf_of_lt h, Bool.or_false, List.contains_eq_mem, decide_eq_false hreg]

namespace Machine

/-- Settles O20: the offset has no writable row, so its write is WR_IGNORED, whose arm keeps the state. -/
theorem writesToReadOnlyOffsetsAreIgnored : Obligations.WritesToReadOnlyOffsetsAreIgnored := by
  intro s off v hbelow hreg
  refine ⟨?row, exec_wrIgnored off v s⟩
  case row => rw [decode_write_base_add, decodeWrite_of_no_row v (offHasWriteRow_of_lt hbelow hreg)]

/-! ### The rows that pass the busy gate, with their effects -/

theorem exec_encode (g : BitVec 28) (s : State) : exec (.encode g) s = .next (s.whenIdle State.startEncode) := rfl
theorem exec_emit (g : BitVec 28) (s : State) : exec (.emit g) s = .next (s.whenIdle State.startEmit) := rfl
theorem exec_decode (g : BitVec 28) (s : State) : exec (.decode g) s = .next (s.whenIdle State.startDecode) := rfl
theorem exec_receive (g : BitVec 28) (s : State) : exec (.receive g) s = .next (s.whenIdle State.startReceive) := rfl
theorem exec_rsvd0 (g : BitVec 28) (s : State) : exec (.rsvd0 g) s = .next (s.whenIdle State.completeIllegal) := rfl
theorem exec_rsvd5 (g : BitVec 28) (s : State) : exec (.rsvd5 g) s = .next (s.whenIdle State.completeIllegal) := rfl
theorem exec_rsvd6 (g : BitVec 28) (s : State) : exec (.rsvd6 g) s = .next (s.whenIdle State.completeIllegal) := rfl
theorem exec_rsvd7 (g : BitVec 28) (s : State) : exec (.rsvd7 g) s = .next (s.whenIdle State.completeIllegal) := rfl
theorem exec_rsvd8F (low : BitVec 3) (g : BitVec 28) (s : State) :
    exec (.rsvd8F low g) s = .next (s.whenIdle State.completeIllegal) := rfl
theorem exec_wrCmd (v : Word) (s : State) :
    exec (.wrCmd v) s = .next (s.whenIdle (State.startOpcode (opcodeOf v))) := rfl
theorem exec_wrLatencyMs (v : Word) (s : State) :
    exec (.wrLatencyMs v) s = .next (s.whenIdle fun t => { t with latencyMs := halfOf v }) := rfl
theorem exec_wrTimeoutMs (v : Word) (s : State) :
    exec (.wrTimeoutMs v) s = .next (s.whenIdle fun t => { t with timeoutMs := halfOf v }) := rfl
theorem exec_wrInLen (v : Word) (s : State) :
    exec (.wrInLen v) s = .next (s.whenIdle fun t => { t with inLen := t.inLenOf v }) := rfl

/-- A write to an entry that exists passes the gate (R236). -/
theorem exec_wrIbuf_of_lt {i : BitVec 16} {s : State} (v : Word) (h : i.toNat < s.cfg.ibufBytes) :
    exec (.wrIbuf i v) s = .next (s.whenIdle fun t => { t with ibuf := t.ibuf.write i.toNat (byteOf v) }) :=
  if_pos h

/-! ### The writes that the gate does not see -/

/-- A write past the array is ignored before the gate is asked, so it sets no OVERRUN (R65, R231). -/
theorem exec_wrIbuf_of_le {i : BitVec 16} {s : State} (v : Word) (h : s.cfg.ibufBytes ≤ i.toNat) :
    exec (.wrIbuf i v) s = .next s :=
  if_neg (Nat.not_lt.mpr h)

theorem exec_wrStatus (v : Word) (s : State) : exec (.wrStatus v) s = .next (s.clearOverrun v) := rfl

theorem clearOverrun_of_set {v : Word} (s : State) (h : v.getLsbD 9 = true) :
    s.clearOverrun v = { s with overrun := false } := by
  rw [State.clearOverrun, h, Bool.not_true, Bool.and_false]

/-! ### IN_LEN -/

theorem halfOf_toNat (v : Word) : (halfOf v).toNat = v.toNat % 65536 := by
  rw [halfOf, BitVec.extractLsb'_toNat, Nat.shiftRight_zero]

/-- Settles O16: the gate is open in IDLE, and the datum's low half is its residue mod 2^16. -/
theorem inLenWriteStoresTheClampedLowHalf : Obligations.InLenWriteStoresTheClampedLowHalf := by
  intro s v hidle
  rw [exec_wrInLen, whenIdle_idle s _ hidle, State.inLenOf, halfOf_toNat]

/-! ### Writes while an operation runs -/

/-- Whatever a gated access would do in IDLE, while an operation runs it only sets OVERRUN (R231). -/
theorem exec_eq_overrun_of_gated {a : Instr} {s : State} {effect : State → State} (hbusy : s.phase ≠ .idle)
    (hgated : exec a s = .next (s.whenIdle effect)) : exec a s = .next { s with overrun := true } := by
  rw [hgated, whenIdle_busy s effect hbusy]

/-- Settles O19: the rows of CMD, the three registers and the existing IBUF entries are gated; the others are not. -/
theorem writesWhileBusyAreDroppedWithOverrun : Obligations.WritesWhileBusyAreDroppedWithOverrun := by
  intro s v g low i off hbusy
  have dropped {a : Instr} {effect : State → State} :=
    exec_eq_overrun_of_gated (a := a) (effect := effect) hbusy
  refine ⟨?gatedRows, fun hin => dropped (exec_wrIbuf_of_lt v hin), exec_wrIbuf_of_le v, exec_wrIgnored off v s, ?w1c⟩
  case gatedRows =>
    simp only [List.forall_mem_cons]
    exact ⟨dropped (exec_encode g s), dropped (exec_emit g s), dropped (exec_decode g s), dropped (exec_receive g s),
      dropped (exec_rsvd0 g s), dropped (exec_rsvd5 g s), dropped (exec_rsvd6 g s), dropped (exec_rsvd7 g s),
      dropped (exec_rsvd8F low g s), dropped (exec_wrCmd v s), dropped (exec_wrLatencyMs v s),
      dropped (exec_wrTimeoutMs v s), dropped (exec_wrInLen v s), List.forall_mem_nil _⟩
  case w1c =>
    intro hset
    rw [exec_wrStatus, clearOverrun_of_set s hset]

end Machine

end Sys2Proof
end

section
/-!
PROOFS. Reserved opcodes (spec 60_exceptions.md R272): which accepted writes to CMD complete as ILLEGAL_OP, and that this
completion leaves everything but RESULT and WINDOW_FULL as it is.
-/

namespace Sys2Proof.Machine

/-! ### Completion as ILLEGAL_OP -/

/-- In IDLE the completion has no phase to leave, so it only writes the two outcome fields (R272). -/
theorem completeIllegal_of_idle {s : State} (hidle : s.phase = .idle) :
    s.completeIllegal = { s with result := .illegalOp, windowFull := false } := by
  rw [State.completeIllegal, State.complete, ← hidle]

/-! ### The opcodes that are reserved -/

/-- RECEIVE is a reserved opcode of a build without the receiver (R8, R98). -/
theorem startReceive_of_absent {s : State} (hrx : s.cfg.rxPresent = false) : s.startReceive = s.completeIllegal := by
  rw [State.startReceive, hrx, if_neg Bool.false_ne_true]

theorem startOpcode_receive (s : State) : s.startOpcode 4#4 = s.startReceive := rfl

/-- Outside 1 to 4 no opcode has an operation (R98). -/
theorem startOpcode_of_unassigned {opcode : BitVec 4} (s : State) (h : opcode.toNat = 0 ∨ 5 ≤ opcode.toNat) :
    s.startOpcode opcode = s.completeIllegal := by
  have hEncode : opcode ≠ 1#4 := by bv_omega
  have hEmit : opcode ≠ 2#4 := by bv_omega
  have hDecode : opcode ≠ 3#4 := by bv_omega
  have hReceive : opcode ≠ 4#4 := by bv_omega
  rw [State.startOpcode, if_neg hEncode, if_neg hEmit, if_neg hDecode, if_neg hReceive]

/-- The reserved opcodes of a build, as CMD sees them: the unassigned ones, and RECEIVE without the receiver (R98). -/
theorem startOpcode_of_reserved {opcode : BitVec 4} {s : State}
    (h : opcode.toNat = 0 ∨ 5 ≤ opcode.toNat ∨ (opcode.toNat = 4 ∧ s.cfg.rxPresent = false)) :
    s.startOpcode opcode = s.completeIllegal := by
  obtain hzero | hhigh | ⟨hfour, hrx⟩ := h
  · exact startOpcode_of_unassigned s (.inl hzero)
  · exact startOpcode_of_unassigned s (.inr hhigh)
  · obtain rfl : opcode = 4#4 := BitVec.eq_of_toNat_eq hfour
    rw [startOpcode_receive, startReceive_of_absent hrx]

/-! ### The accepted writes -/

/-- A gated access whose effect is the completion as ILLEGAL_OP, accepted in IDLE (R230, R272). -/
theorem exec_eq_illegalOp_of_gated {a : Instr} {s : State} {effect : State → State} (hidle : s.phase = .idle)
    (hgated : exec a s = .next (s.whenIdle effect)) (hreserved : effect s = s.completeIllegal) :
    exec a s = .next { s with result := .illegalOp, windowFull := false } := by
  rw [hgated, whenIdle_idle s effect hidle, hreserved, completeIllegal_of_idle hidle]

/-- Settles O22: the gate is open in IDLE, and each reserved row, and the write of its word, completes as ILLEGAL_OP. -/
theorem reservedOpcodesOnlySetIllegalOp : Obligations.ReservedOpcodesOnlySetIllegalOp := by
  intro s g low v hidle
  have illegal {a : Instr} {effect : State → State} :=
    exec_eq_illegalOp_of_gated (a := a) (effect := effect) hidle
  refine ⟨?reservedRows, fun hrx => illegal (exec_receive g s) (startReceive_of_absent hrx),
    fun hreserved => illegal (exec_wrCmd v s) (startOpcode_of_reserved hreserved)⟩
  case reservedRows =>
    simp only [List.forall_mem_cons]
    exact ⟨illegal (exec_rsvd0 g s) rfl, illegal (exec_rsvd5 g s) rfl, illegal (exec_rsvd6 g s) rfl,
      illegal (exec_rsvd7 g s) rfl, illegal (exec_rsvd8F low g s) rfl, List.forall_mem_nil _⟩

end Sys2Proof.Machine
end

section
/-!
PROOFS. The decoder and the encoder are inverse to each other (spec 20_memory.md R60, R61; 30_encoding.md R97): the fields
of a CMD word, the windows as ranges of offsets, the row of each offset, and the two round trips.
-/

namespace Sys2Proof

/-! ### The fields of a CMD word -/

/-- Appended bits as a number: the high part counts in units of the low part's width. -/
theorem toNat_append_eq_mul_add {m n : Nat} (x : BitVec m) (y : BitVec n) :
    (x ++ y).toNat = 2 ^ n * x.toNat + y.toNat := by
  rw [BitVec.toNat_append, Nat.shiftLeft_eq, Nat.mul_comm, Nat.two_pow_add_eq_or_of_lt y.isLt]

@[simp] theorem opcodeOf_cmdWord (ign : BitVec 28) (opcode : BitVec 4) : opcodeOf (cmdWord ign opcode) = opcode :=
  BitVec.extractLsb'_append_eq_right

@[simp] theorem ignoredBits_cmdWord (ign : BitVec 28) (opcode : BitVec 4) :
    (cmdWord ign opcode).extractLsb' 4 28 = ign :=
  BitVec.extractLsb'_append_eq_left

theorem opcodeOf_toNat (w : Word) : (opcodeOf w).toNat = w.toNat % 16 := by
  rw [opcodeOf, BitVec.extractLsb'_toNat, Nat.shiftRight_zero]

/-- A CMD word is its ignored bits above its opcode (R97). -/
theorem cmdWord_fields (w : Word) : cmdWord (w.extractLsb' 4 28) (opcodeOf w) = w := by
  apply BitVec.eq_of_toNat_eq
  rw [cmdWord, toNat_append_eq_mul_add, opcodeOf_toNat, BitVec.extractLsb'_toNat, Nat.shiftRight_eq_div_pow]
  omega

/-- An opcode of 8 to F is a 1 above its low three bits, which its row carries (R98). -/
theorem lowBits_cmdWord_high (low : BitVec 3) (ign : BitVec 28) :
    (cmdWord ign (1#1 ++ low)).extractLsb' 0 3 = low := by
  apply BitVec.eq_of_toNat_eq
  rw [BitVec.extractLsb'_toNat, cmdWord, toNat_append_eq_mul_add, toNat_append_eq_mul_add, Nat.shiftRight_zero]
  omega

theorem opcodeOf_of_high {w : Word} (h : 8 ≤ (opcodeOf w).toNat) : 1#1 ++ w.extractLsb' 0 3 = opcodeOf w := by
  apply BitVec.eq_of_toNat_eq
  rw [opcodeOf_toNat] at *
  rw [toNat_append_eq_mul_add, BitVec.extractLsb'_toNat, Nat.shiftRight_zero, BitVec.toNat_ofNat]
  omega

theorem decodeCmd_high (ign : BitVec 28) (low : BitVec 3) :
    decodeCmd (cmdWord ign (1#1 ++ low)) = .rsvd8F low ign := by
  have hhigh : (1#1 ++ low).toNat = 8 + low.toNat := toNat_append_eq_mul_add 1#1 low
  have hne (n : BitVec 4) (hn : n.toNat < 8) : (1#1 ++ low : BitVec 4) ≠ n := by
    rintro rfl
    omega
  simp [decodeCmd, hne, lowBits_cmdWord_high]

/-- What a CMD word decodes to has that word as its encoding, and there is no ill-formed CMD row. -/
theorem encode_decodeCmd (base : Nat) (w : Word) :
    (decodeCmd w).wellFormed = true ∧ encode base (decodeCmd w) = .cmd w := by
  have hfields := cmdWord_fields w
  unfold decodeCmd
  split_ifs with h0 h1 h2 h3 h4 h5 h6 h7
  case neg =>
    have hhigh : 8 ≤ (opcodeOf w).toNat := by bv_omega
    simp [Instr.wellFormed, encode, opcodeOf_of_high hhigh, hfields]
  all_goals simp_all [Instr.wellFormed, encode]

/-! ### The windows as ranges of offsets -/

/-- A multiple of 4 has 0 in its two low bits. -/
theorem aligned_iff (off : BitVec 19) : off.extractLsb' 0 2 = 0#2 ↔ off.toNat % 4 = 0 := by
  rw [← BitVec.toNat_inj, BitVec.extractLsb'_toNat, Nat.shiftRight_zero]
  rfl

/-- The OBUF window (R61, R63). -/
theorem inObufWindow_iff (off : BitVec 19) :
    off.extractLsb' 12 7 = 1#7 ↔ 0x1000 ≤ off.toNat ∧ off.toNat < 0x2000 := by
  rw [← BitVec.toNat_inj, BitVec.extractLsb'_toNat, Nat.shiftRight_eq_div_pow, BitVec.toNat_ofNat]
  omega

/-- The MSG window (R61, R64). -/
theorem inMsgWindow_iff (off : BitVec 19) :
    off.extractLsb' 17 2 = 1#2 ↔ 0x20000 ≤ off.toNat ∧ off.toNat < 0x40000 := by
  rw [← BitVec.toNat_inj, BitVec.extractLsb'_toNat, Nat.shiftRight_eq_div_pow, BitVec.toNat_ofNat]
  omega

/-- The IBUF window (R61, R62). -/
theorem inIbufWindow_iff (off : BitVec 19) : off.extractLsb' 18 1 = 1#1 ↔ 0x40000 ≤ off.toNat := by
  rw [← BitVec.toNat_inj, BitVec.extractLsb'_toNat, Nat.shiftRight_eq_div_pow, BitVec.toNat_ofNat]
  omega

/-- The index that an offset holds above its two low bits. -/
theorem indexOf_toNat (off : BitVec 19) (width : Nat) :
    (off.extractLsb' 2 width).toNat = off.toNat / 4 % 2 ^ width := by
  rw [BitVec.extractLsb'_toNat, Nat.shiftRight_eq_div_pow]

/-! ### The row of a read -/

theorem decodeRead_of_inObuf {off : BitVec 19} (h4 : off.toNat % 4 = 0) (hlo : 0x1000 ≤ off.toNat)
    (hhi : off.toNat < 0x2000) : decodeRead off = .rdObuf (off.extractLsb' 2 10) := by
  have hreg (n : BitVec 19) (hn : n.toNat < 0x1000) : off ≠ n := by rintro rfl; omega
  simp [decodeRead, hreg, aligned_iff, inObufWindow_iff, h4, hlo, hhi]

theorem decodeRead_of_inMsg {off : BitVec 19} (h4 : off.toNat % 4 = 0) (hlo : 0x20000 ≤ off.toNat)
    (hhi : off.toNat < 0x40000) : decodeRead off = .rdMsg (off.extractLsb' 2 15) := by
  have hreg (n : BitVec 19) (hn : n.toNat < 0x1000) : off ≠ n := by rintro rfl; omega
  have hobuf : ¬off.toNat < 0x2000 := by omega
  simp [decodeRead, hreg, aligned_iff, inObufWindow_iff, inMsgWindow_iff, h4, hobuf, hlo, hhi]

theorem decodeRead_of_inIbuf {off : BitVec 19} (h4 : off.toNat % 4 = 0) (hlo : 0x40000 ≤ off.toNat) :
    decodeRead off = .rdIbuf (off.extractLsb' 2 16) := by
  have hreg (n : BitVec 19) (hn : n.toNat < 0x1000) : off ≠ n := by rintro rfl; omega
  have hobuf : ¬off.toNat < 0x2000 := by omega
  have hmsg : ¬off.toNat < 0x40000 := by omega
  simp [decodeRead, hreg, aligned_iff, inObufWindow_iff, inMsgWindow_iff, inIbufWindow_iff, h4, hobuf, hmsg, hlo]

/-- An offset that no other read row matches is the row RD_RESERVED (R61, R65). -/
theorem decodeRead_of_no_row {off : BitVec 19} (h : offHasReadRow off = false) : decodeRead off = .rdReserved off := by
  simp only [offHasReadRow, List.contains_eq_mem, List.mem_cons, List.not_mem_nil, or_false, Bool.or_eq_false_iff,
    decide_eq_false_iff_not, not_or, Bool.and_eq_false_iff, beq_eq_false_iff_ne] at h
  obtain ⟨⟨hId, hCaps, hSize, hCmd, hStatus, hLatency, hTimeout, hInLen, hOutLen, hCount, hConsumed⟩, hWindow⟩ := h
  have hObuf : ¬(off.extractLsb' 0 2 = 0#2 ∧ off.extractLsb' 12 7 = 1#7) := by tauto
  have hMsg : ¬(off.extractLsb' 0 2 = 0#2 ∧ off.extractLsb' 17 2 = 1#2) := by tauto
  have hIbuf : ¬(off.extractLsb' 0 2 = 0#2 ∧ off.extractLsb' 18 1 = 1#1) := by tauto
  rw [decodeRead, if_neg hId, if_neg hCaps, if_neg hSize, if_neg hCmd, if_neg hStatus, if_neg hLatency,
    if_neg hTimeout, if_neg hInLen, if_neg hOutLen, if_neg hCount, if_neg hConsumed, if_neg hObuf, if_neg hMsg,
    if_neg hIbuf]

/-- A read row other than RD_RESERVED is a register's, or one of the three windows' (R61). -/
theorem offHasReadRow_iff (off : BitVec 19) :
    offHasReadRow off = true ↔
      off ∈ [0x00000#19, 0x00004#19, 0x00008#19, 0x00010#19, 0x00014#19, 0x00018#19, 0x0001C#19, 0x00020#19,
        0x00024#19, 0x00028#19, 0x0002C#19] ∨
      off.toNat % 4 = 0 ∧ ((0x1000 ≤ off.toNat ∧ off.toNat < 0x2000) ∨
        (0x20000 ≤ off.toNat ∧ off.toNat < 0x40000) ∨ 0x40000 ≤ off.toNat) := by
  rw [offHasReadRow, Bool.or_eq_true, List.contains_iff_mem, Bool.and_eq_true, Bool.or_eq_true, Bool.or_eq_true,
    beq_iff_eq, beq_iff_eq, beq_iff_eq, beq_iff_eq, aligned_iff, inObufWindow_iff, inMsgWindow_iff, inIbufWindow_iff,
    or_assoc]

theorem encode_decodeRead_register (base : Nat) :
    ∀ off ∈ [0x00000#19, 0x00004#19, 0x00008#19, 0x00010#19, 0x00014#19, 0x00018#19, 0x0001C#19, 0x00020#19,
        0x00024#19, 0x00028#19, 0x0002C#19],
      (decodeRead off).wellFormed = true ∧ encode base (decodeRead off) = .read 4 (base + off.toNat) := by
  simp only [List.forall_mem_cons]
  exact ⟨⟨rfl, rfl⟩, ⟨rfl, rfl⟩, ⟨rfl, rfl⟩, ⟨rfl, rfl⟩, ⟨rfl, rfl⟩, ⟨rfl, rfl⟩, ⟨rfl, rfl⟩, ⟨rfl, rfl⟩, ⟨rfl, rfl⟩,
    ⟨rfl, rfl⟩, ⟨rfl, rfl⟩, List.forall_mem_nil _⟩

/-- What a read decodes to is well-formed and has the read at that offset as its encoding. -/
theorem encode_decodeRead (base : Nat) (off : BitVec 19) :
    (decodeRead off).wellFormed = true ∧ encode base (decodeRead off) = .read 4 (base + off.toNat) := by
  cases hrow : offHasReadRow off with
  | false => simp [decodeRead_of_no_row hrow, Instr.wellFormed, hrow, encode]
  | true =>
    rcases (offHasReadRow_iff off).mp hrow with hreg | ⟨h4, ⟨hlo, hhi⟩ | ⟨hlo, hhi⟩ | hlo⟩
    · exact encode_decodeRead_register base off hreg
    · rw [decodeRead_of_inObuf h4 hlo hhi, encode, indexOf_toNat]
      exact ⟨rfl, by congr 2; omega⟩
    · rw [decodeRead_of_inMsg h4 hlo hhi, encode, indexOf_toNat]
      exact ⟨rfl, by congr 2; omega⟩
    · rw [decodeRead_of_inIbuf h4 hlo, encode, indexOf_toNat]
      exact ⟨rfl, by congr 2; omega⟩

/-! ### The row of a write -/

theorem decodeWrite_of_inIbuf {off : BitVec 19} (v : Word) (h4 : off.toNat % 4 = 0) (hlo : 0x40000 ≤ off.toNat) :
    decodeWrite off v = .wrIbuf (off.extractLsb' 2 16) v := by
  have hreg (n : BitVec 19) (hn : n.toNat < 0x1000) : off ≠ n := by rintro rfl; omega
  simp [decodeWrite, hreg, aligned_iff, inIbufWindow_iff, h4, hlo]

/-- A write row other than WR_IGNORED is a register's or the IBUF window's (R61). -/
theorem offHasWriteRow_iff (off : BitVec 19) :
    offHasWriteRow off = true ↔
      off ∈ [0x00010#19, 0x00014#19, 0x00018#19, 0x0001C#19, 0x00020#19] ∨
      off.toNat % 4 = 0 ∧ 0x40000 ≤ off.toNat := by
  rw [offHasWriteRow, offInIbuf, Bool.or_eq_true, List.contains_iff_mem, Bool.and_eq_true, beq_iff_eq, beq_iff_eq,
    aligned_iff, inIbufWindow_iff]

theorem encode_decodeWrite_register (base : Nat) (v : Word) :
    ∀ off ∈ [0x00010#19, 0x00014#19, 0x00018#19, 0x0001C#19, 0x00020#19],
      (decodeWrite off v).wellFormed = true ∧ encode base (decodeWrite off v) = .write 4 (base + off.toNat) v := by
  simp only [List.forall_mem_cons]
  exact ⟨⟨rfl, rfl⟩, ⟨rfl, rfl⟩, ⟨rfl, rfl⟩, ⟨rfl, rfl⟩, ⟨rfl, rfl⟩, List.forall_mem_nil _⟩

/-- What a write decodes to is well-formed and has the write at that offset as its encoding. -/
theorem encode_decodeWrite (base : Nat) (off : BitVec 19) (v : Word) :
    (decodeWrite off v).wellFormed = true ∧ encode base (decodeWrite off v) = .write 4 (base + off.toNat) v := by
  cases hrow : offHasWriteRow off with
  | false => simp [decodeWrite_of_no_row v hrow, Instr.wellFormed, hrow, encode]
  | true =>
    rcases (offHasWriteRow_iff off).mp hrow with hreg | ⟨h4, hlo⟩
    · exact encode_decodeWrite_register base v off hreg
    · rw [decodeWrite_of_inIbuf v h4 hlo, encode, indexOf_toNat]
      exact ⟨rfl, by congr 2; omega⟩

/-! ### The window -/

/-- A 32-bit read at BASE plus an offset is the offset's read row, wherever the window sits (R60, R61). -/
theorem decode_read_base_add (base : Nat) (off : BitVec 19) :
    decode base (.read 4 (base + off.toNat)) = .ok (decodeRead off) := by
  simp [decode]

/-- An access is in the window exactly when it is 32 bits wide and at BASE plus an offset (R60). -/
theorem windowOffset_eq_ok_iff (base width addr : Nat) (off : BitVec 19) :
    windowOffset base width addr = .ok off ↔ width = 4 ∧ addr = base + off.toNat := by
  constructor
  · intro h
    unfold windowOffset Config.windowBytes at h
    split_ifs at h with hwidth hwindow
    cases h
    rw [BitVec.toNat_ofNat]
    omega
  · rintro ⟨rfl, rfl⟩
    exact windowOffset_base_add base off

/-- The two ways an access is rejected, each by its name (R60, U13). -/
theorem windowOffset_of_width {width : Nat} (base addr : Nat) (h : width ≠ 4) :
    windowOffset base width addr = .error (.badWidth width) :=
  if_pos h

theorem windowOffset_of_outside {base addr : Nat} (h : addr < base ∨ base + 0x80000 ≤ addr) :
    windowOffset base 4 addr = .error (.outsideWindow addr) := by
  have hout : ¬(base ≤ addr ∧ addr < base + Config.windowBytes) := by
    unfold Config.windowBytes
    omega
  rw [windowOffset, if_neg (not_not.mpr rfl), if_neg hout]

/-- Each array's window starts at its own size in bytes, so the offset of an entry holds the entry's index (R61). -/
theorem exists_offset_of_entry {width : Nat} (i : BitVec width) (hwidth : width ≤ 16) :
    ∃ off : BitVec 19, off.toNat = 4 * 2 ^ width + 4 * i.toNat ∧ off.extractLsb' 2 width = i := by
  have hsize : 2 ^ width ≤ 2 ^ 16 := Nat.pow_le_pow_right (by decide) hwidth
  have hi := i.isLt
  have hoff : (BitVec.ofNat 19 (4 * 2 ^ width + 4 * i.toNat)).toNat = 4 * 2 ^ width + 4 * i.toNat := by
    rw [BitVec.toNat_ofNat]
    omega
  have hindex : (4 * 2 ^ width + 4 * i.toNat) / 4 = i.toNat + 2 ^ width := by omega
  refine ⟨_, hoff, BitVec.eq_of_toNat_eq ?_⟩
  rw [indexOf_toNat, hoff, hindex, Nat.add_mod_right, Nat.mod_eq_of_lt hi]

/-! ### The two round trips -/

theorem decode_encode_rdObuf (base : Nat) (i : BitVec 10) : decode base (encode base (.rdObuf i)) = .ok (.rdObuf i) := by
  obtain ⟨off, hoff, hindex⟩ := exists_offset_of_entry i (by decide)
  have hi := i.isLt
  rw [encode, ← hindex, ← decodeRead_of_inObuf (off := off) (by omega) (by omega) (by omega), ← decode_read_base_add base,
    hindex, hoff]
  rfl

theorem decode_encode_rdMsg (base : Nat) (i : BitVec 15) : decode base (encode base (.rdMsg i)) = .ok (.rdMsg i) := by
  obtain ⟨off, hoff, hindex⟩ := exists_offset_of_entry i (by decide)
  have hi := i.isLt
  rw [encode, ← hindex, ← decodeRead_of_inMsg (off := off) (by omega) (by omega) (by omega), ← decode_read_base_add base,
    hindex, hoff]
  rfl

theorem decode_encode_rdIbuf (base : Nat) (i : BitVec 16) : decode base (encode base (.rdIbuf i)) = .ok (.rdIbuf i) := by
  obtain ⟨off, hoff, hindex⟩ := exists_offset_of_entry i (by decide)
  rw [encode, ← hindex, ← decodeRead_of_inIbuf (off := off) (by omega) (by omega), ← decode_read_base_add base,
    hindex, hoff]
  rfl

theorem decode_encode_wrIbuf (base : Nat) (i : BitVec 16) (v : Word) :
    decode base (encode base (.wrIbuf i v)) = .ok (.wrIbuf i v) := by
  obtain ⟨off, hoff, hindex⟩ := exists_offset_of_entry i (by decide)
  rw [encode, ← hindex, ← decodeWrite_of_inIbuf (off := off) v (by omega) (by omega), ← decode_write_base_add base,
    hindex, hoff]
  rfl

/-- The rows for every other offset: well-formedness says that no other row of their direction matches. -/
theorem decode_encode_rdReserved (base : Nat) {off : BitVec 19} (h : (Instr.rdReserved off).wellFormed = true) :
    decode base (encode base (.rdReserved off)) = .ok (.rdReserved off) := by
  rw [encode, decode_read_base_add, decodeRead_of_no_row ((Bool.not_eq_true' _).mp h)]

theorem decode_encode_wrIgnored (base : Nat) {off : BitVec 19} (v : Word)
    (h : (Instr.wrIgnored off v).wellFormed = true) :
    decode base (encode base (.wrIgnored off v)) = .ok (.wrIgnored off v) := by
  rw [encode, decode_write_base_add, decodeWrite_of_no_row v ((Bool.not_eq_true' _).mp h)]

/-- Settles O1, row by row: the CMD rows by the fields of their word, the registers by their offsets, the array rows by
their windows, the two rows for other offsets by well-formedness. -/
theorem encodedInstructionDecodesToItself : Obligations.EncodedInstructionDecodesToItself := by
  intro base i hwf
  cases i with
  | encode ign | emit ign | decode ign | receive ign | rsvd0 ign | rsvd5 ign | rsvd6 ign | rsvd7 ign =>
    simp [encode, decode, decodeCmd]
  | rsvd8F low ign => rw [encode, decode, decodeCmd_high]
  | rdId => exact decode_read_base_add base 0x00000#19
  | rdCaps => exact decode_read_base_add base 0x00004#19
  | rdIbufSize => exact decode_read_base_add base 0x00008#19
  | rdCmd => exact decode_read_base_add base 0x00010#19
  | rdStatus => exact decode_read_base_add base 0x00014#19
  | rdLatencyMs => exact decode_read_base_add base 0x00018#19
  | rdTimeoutMs => exact decode_read_base_add base 0x0001C#19
  | rdInLen => exact decode_read_base_add base 0x00020#19
  | rdOutLen => exact decode_read_base_add base 0x00024#19
  | rdMsgCount => exact decode_read_base_add base 0x00028#19
  | rdConsumed => exact decode_read_base_add base 0x0002C#19
  | wrCmd v => exact decode_write_base_add base 0x00010#19 v
  | wrStatus v => exact decode_write_base_add base 0x00014#19 v
  | wrLatencyMs v => exact decode_write_base_add base 0x00018#19 v
  | wrTimeoutMs v => exact decode_write_base_add base 0x0001C#19 v
  | wrInLen v => exact decode_write_base_add base 0x00020#19 v
  | rdObuf i => exact decode_encode_rdObuf base i
  | rdMsg i => exact decode_encode_rdMsg base i
  | rdIbuf i => exact decode_encode_rdIbuf base i
  | wrIbuf i v => exact decode_encode_wrIbuf base i v
  | rdReserved off => exact decode_encode_rdReserved base hwf
  | wrIgnored off v => exact decode_encode_wrIgnored base v hwf

/-- A read that decodes is the read row of an offset from BASE (R60, R61). -/
theorem exists_offset_of_decode_read {base width addr : Nat} {i : Instr} (h : decode base (.read width addr) = .ok i) :
    ∃ off : BitVec 19, width = 4 ∧ addr = base + off.toNat ∧ decodeRead off = i := by
  cases hoff : windowOffset base width addr with
  | error e => simp only [decode, hoff, reduceCtorEq] at h
  | ok off =>
    obtain ⟨hwidth, haddr⟩ := (windowOffset_eq_ok_iff ..).mp hoff
    simp only [decode, hoff, Except.ok.injEq] at h
    exact ⟨off, hwidth, haddr, h⟩

/-- A write that decodes is the write row of an offset from BASE (R60, R61). -/
theorem exists_offset_of_decode_write {base width addr : Nat} {v : Word} {i : Instr}
    (h : decode base (.write width addr v) = .ok i) :
    ∃ off : BitVec 19, width = 4 ∧ addr = base + off.toNat ∧ decodeWrite off v = i := by
  cases hoff : windowOffset base width addr with
  | error e => simp only [decode, hoff, reduceCtorEq] at h
  | ok off =>
    obtain ⟨hwidth, haddr⟩ := (windowOffset_eq_ok_iff ..).mp hoff
    simp only [decode, hoff, Except.ok.injEq] at h
    exact ⟨off, hwidth, haddr, h⟩

/-- Settles O2: the word of a CMD row, and the offset of a bus access with its datum, is all there is of a request that
decodes, and its row keeps it. -/
theorem decodedRequestEncodesBack : Obligations.DecodedRequestEncodesBack := by
  intro base r i h
  cases r with
  | cmd w =>
    cases h
    exact encode_decodeCmd base w
  | read width addr =>
    obtain ⟨off, rfl, rfl, rfl⟩ := exists_offset_of_decode_read h
    exact encode_decodeRead base off
  | write width addr v =>
    obtain ⟨off, rfl, rfl, rfl⟩ := exists_offset_of_decode_write h
    exact encode_decodeWrite base off v

/-- Settles O3: the sampled requests, evaluated. -/
theorem sampleRequestsDecodeToTheirRows : Obligations.SampleRequestsDecodeToTheirRows := by
  unfold Obligations.SampleRequestsDecodeToTheirRows
  decide

/-- Settles O4: both directions are rejected by the window's test, which comes before the row is looked up. -/
theorem requestsOutsideTheWindowOrWidthAreRejected : Obligations.RequestsOutsideTheWindowOrWidthAreRejected := by
  intro base width addr v
  refine ⟨fun hwidth => ?width, fun hout => ?outside⟩
  case width => simp only [decode, windowOffset_of_width base addr hwidth, and_self]
  case outside => simp only [decode, windowOffset_of_outside hout, and_self]

end Sys2Proof
end

section
/-!
PROOFS. One step (spec 10_state.md R31; 20_memory.md R71; 70_reset_and_hazards.md R300): what a cycle is with and without
a host access, where the machine stops, the one case analysis of all that a step can do, and the reset cycle.
-/

namespace Sys2Proof.Machine

/-! ### The fetch of the cycle's access -/

theorem fetch_of_no_host {c : CycleIn} (s : State) (h : c.host = none) : fetch c s = .noAccess := by
  simp [fetch, h]

theorem fetch_of_decode {c : CycleIn} {s : State} {r : Request} {i : Instr} (hhost : c.host = some r)
    (hdecode : decode s.cfg.base r = .ok i) : fetch c s = .instr i := by
  simp [fetch, hhost, hdecode]

theorem fetch_of_reject {c : CycleIn} {s : State} {r : Request} {e : Reject} (hhost : c.host = some r)
    (hdecode : decode s.cfg.base r = .error e) : fetch c s = .rejected e := by
  simp [fetch, hhost, hdecode]

/-! ### The cycle by its inputs -/

theorem step_of_illegal {s : State} (h : s.cfg.legal = false) : step s = .refused .illegalParameters := by
  simp [step, runCycle, h]

theorem step_of_reset {s : State} (hlegal : s.cfg.legal = true) (hrst : s.nextCycle.rst = true) :
    step s = resetCycle s.nextCycle (s.beginCycle s.nextCycle) := by
  simp [step, runCycle, hlegal, hrst]

theorem step_of_no_reset {s : State} (hlegal : s.cfg.legal = true) (hrst : s.nextCycle.rst = false) :
    step s = normalCycle s.nextCycle (s.beginCycle s.nextCycle) := by
  simp [step, runCycle, hlegal, hrst]

theorem step_of_unattended {s : State} (hlegal : s.cfg.legal = true) (h : s.nextCycle.unattended) :
    step s = .next (afterAccess s.nextCycle s.phase (s.beginCycle s.nextCycle)) := by
  obtain ⟨hrst, hhost⟩ := h
  rw [step_of_no_reset hlegal hrst, normalCycle, fetch_of_no_host _ hhost, beginCycle_phase]

theorem step_of_access {s t : State} {r : Request} {i : Instr} (hlegal : s.cfg.legal = true)
    (hrst : s.nextCycle.rst = false) (hhost : s.nextCycle.host = some r) (hdecode : decode s.cfg.base r = .ok i)
    (hexec : exec i (s.beginCycle s.nextCycle) = .next t) :
    step s = .next (afterAccess s.nextCycle s.phase t) := by
  have hfetch := fetch_of_decode (s := s.beginCycle s.nextCycle) hhost hdecode
  simp only [step_of_no_reset hlegal hrst, normalCycle, hfetch, hexec, beginCycle_phase]

theorem step_of_reset_unattended {s : State} (hlegal : s.cfg.legal = true) (hrst : s.nextCycle.rst = true)
    (hhost : s.nextCycle.host = none) : step s = .next (s.beginCycle s.nextCycle).applyReset := by
  rw [step_of_reset hlegal hrst, resetCycle, fetch_of_no_host _ hhost]

theorem step_of_reset_access {s : State} {r : Request} {i : Instr} (hlegal : s.cfg.legal = true)
    (hrst : s.nextCycle.rst = true) (hhost : s.nextCycle.host = some r) (hdecode : decode s.cfg.base r = .ok i) :
    step s = .next (accessInReset i (s.beginCycle s.nextCycle).applyReset) := by
  have hfetch := fetch_of_decode (s := s.beginCycle s.nextCycle) hhost hdecode
  rw [step_of_reset hlegal hrst, resetCycle, hfetch]

theorem step_of_reject {s : State} {r : Request} {e : Reject} (hlegal : s.cfg.legal = true)
    (hhost : s.nextCycle.host = some r) (hdecode : decode s.cfg.base r = .error e) : step s = stopOn e := by
  have hfetch := fetch_of_reject (s := s.beginCycle s.nextCycle) hhost hdecode
  cases hrst : s.nextCycle.rst with
  | false => rw [step_of_no_reset hlegal hrst, normalCycle, hfetch]
  | true => rw [step_of_reset hlegal hrst, resetCycle, hfetch]

/-- Settles O5: the decoded access answers a next state, and the controller works on it unless the cycle started in
IDLE. -/
theorem stepRunsTheDecodedInstruction : Obligations.StepRunsTheDecodedInstruction := by
  intro s r i hlegal hrst hhost hdecode
  obtain ⟨t, hexec, -⟩ := exec_cases i (s.beginCycle s.nextCycle)
  exact ⟨t, hexec, step_of_access hlegal hrst hhost hdecode hexec⟩

/-- Settles O6: the cycle without access is the controller's part of a cycle alone. -/
theorem stepWithoutAccessIsTheControllersStep : Obligations.StepWithoutAccessIsTheControllersStep :=
  fun _ hlegal hrst hhost => step_of_unattended hlegal ⟨hrst, hhost⟩

theorem exists_decode_of_covered {c : CycleIn} {base : Nat} {r : Request} (hhost : c.host = some r)
    (h : c.covered base) : ∃ i, decode base r = .ok i := by
  simpa [CycleIn.covered, hhost] using h

/-- Settles O7: with legal parameters every covered cycle is one of four, each of which answers a next state, and a
rejected request stops by its name. -/
theorem stepStopsExactlyOutsideTheSpec : Obligations.StepStopsExactlyOutsideTheSpec := by
  intro s
  refine ⟨fun hlegal hcovered => ?goesOn, fun hlegal r width hhost hdecode => step_of_reject hlegal hhost hdecode,
    fun hlegal r addr hhost hdecode => step_of_reject hlegal hhost hdecode, step_of_illegal⟩
  cases hrst : s.nextCycle.rst with
  | true =>
    cases hhost : s.nextCycle.host with
    | none => exact ⟨_, step_of_reset_unattended hlegal hrst hhost⟩
    | some r =>
      obtain ⟨i, hdecode⟩ := exists_decode_of_covered hhost hcovered
      exact ⟨_, step_of_reset_access hlegal hrst hhost hdecode⟩
  | false =>
    cases hhost : s.nextCycle.host with
    | none => exact ⟨_, step_of_unattended hlegal ⟨hrst, hhost⟩⟩
    | some r =>
      obtain ⟨i, hdecode⟩ := exists_decode_of_covered hhost hcovered
      obtain ⟨t, hexec, -⟩ := exec_cases i (s.beginCycle s.nextCycle)
      exact ⟨_, step_of_access hlegal hrst hhost hdecode hexec⟩

/-! ### Everything a step can do -/

/-- What a host access may change in any phase: OVERRUN, the answered read and the draw counter (log 7). -/
def State.withAccess (s : State) (overrun : Bool) (rdata : Option Word) (draw : Nat) : State :=
  { s with overrun := overrun, rdata := rdata, draw := draw }

theorem withAccess_self (s : State) : s.withAccess s.overrun s.rdata s.draw = s := rfl

/-- An instruction changes only what any access may, or it is one of the effects of an idle machine. -/
theorem exec_next_cases {i : Instr} {s t : State} (h : exec i s = .next t) :
    (∃ overrun rdata draw, t = s.withAccess overrun rdata draw) ∨ (s.phase = .idle ∧ idleEffect s t) := by
  obtain ⟨u, hu, hcases⟩ := exec_cases i s
  obtain rfl : u = t := Host.Outcome.next.inj (hu.symm.trans h)
  obtain ⟨v, rfl⟩ | rfl | rfl | ⟨v, rfl⟩ | ⟨-, rfl⟩ | heffect := hcases
  · exact .inl ⟨_, _, _, rfl⟩
  · exact .inl ⟨_, _, _, rfl⟩
  · exact .inl ⟨_, _, _, withAccess_self u⟩
  · exact .inl ⟨_, _, _, rfl⟩
  · exact .inl ⟨_, _, _, rfl⟩
  · exact .inr heffect

/-- An access of a reset cycle changes only what any access may. -/
theorem accessInReset_eq_withAccess (i : Instr) (s : State) :
    ∃ overrun rdata draw, accessInReset i s = s.withAccess overrun rdata draw := by
  obtain ⟨v, h⟩ | h | h := accessInReset_cases i s
  · exact ⟨_, _, _, h⟩
  · exact ⟨_, _, _, h⟩
  · exact ⟨_, _, _, h⟩

/-- The cases of a step that answers a next state: a reset; a cycle that started in IDLE, in which the host may have had
one of its effects; a cycle of a running operation, in which the controller steps and the host changed nothing that it reads. -/
theorem step_cases {s t : State} (h : step s = .next t) :
    (s.nextCycle.rst = true ∧ ∃ overrun rdata draw,
      t = (s.beginCycle s.nextCycle).applyReset.withAccess overrun rdata draw) ∨
    (s.nextCycle.rst = false ∧ s.phase = .idle ∧
      ((∃ overrun rdata draw, t = (s.beginCycle s.nextCycle).withAccess overrun rdata draw) ∨
        idleEffect (s.beginCycle s.nextCycle) t)) ∨
    (s.nextCycle.rst = false ∧ s.phase ≠ .idle ∧ ∃ overrun rdata draw,
      t = controllerStep s.nextCycle ((s.beginCycle s.nextCycle).withAccess overrun rdata draw)) := by
  obtain ⟨-, ⟨hrst, ht⟩ | ⟨hrst, ht⟩⟩ := step_next_cases s t h
  · refine .inl ⟨hrst, ?_⟩
    obtain rfl | ⟨i, rfl⟩ := ht
    · exact ⟨_, _, _, (withAccess_self _).symm⟩
    · exact accessInReset_eq_withAccess i _
  · have haccess : ∃ u, t = afterAccess s.nextCycle s.phase u ∧
        ((∃ overrun rdata draw, u = (s.beginCycle s.nextCycle).withAccess overrun rdata draw) ∨
          (s.phase = .idle ∧ idleEffect (s.beginCycle s.nextCycle) u)) := by
      obtain ⟨-, ht⟩ | ⟨i, u, -, hexec, ht⟩ := ht
      · exact ⟨_, ht, .inl ⟨_, _, _, (withAccess_self _).symm⟩⟩
      · exact ⟨u, ht, exec_next_cases hexec⟩
    obtain ⟨u, rfl, hu⟩ := haccess
    by_cases hidle : s.phase = .idle
    · refine .inr (.inl ⟨hrst, hidle, ?_⟩)
      rw [afterAccess, if_pos hidle]
      exact hu.imp_right And.right
    · refine .inr (.inr ⟨hrst, hidle, ?_⟩)
      rw [afterAccess, if_neg hidle]
      obtain ⟨overrun, rdata, draw, rfl⟩ | ⟨hp, -⟩ := hu
      · exact ⟨overrun, rdata, draw, rfl⟩
      · exact absurd hp hidle

theorem legal_of_step {s t : State} (h : step s = .next t) : s.cfg.legal = true := (step_next_cases s t h).1

/-! ### The reset cycle -/

/-- The state after the reset of a cycle, before the access of that cycle is answered (R300). -/
theorem applyReset_beginCycle (s : State) (c : CycleIn) :
    (s.beginCycle c).applyReset = { State.reset with
      cfg := s.cfg, rxFifo := s.rxFifo ++ c.arrive, wire := s.wire, sched := s.sched.tail
      epoch := s.epoch + 1, draw := s.draw } := rfl

/-- Settles O55: without an access nothing comes after the reset. -/
theorem resetCycleRestoresEveryResetValue : Obligations.ResetCycleRestoresEveryResetValue :=
  fun s hlegal hrst hhost => (step_of_reset_unattended hlegal hrst hhost).trans
    (congrArg Host.Outcome.next (applyReset_beginCycle s s.nextCycle))

end Sys2Proof.Machine
end

section
/-!
PROOFS. The invariant of FCODEC (spec 95_test_vectors.md section 4): reset meets it, and every part of a step keeps it, the
host's effects in IDLE and each phase of the controller.
-/

namespace Sys2Proof.Machine

/-- Settles O58: at reset the arrays are empty, the lengths 0 and the phase IDLE. -/
theorem resetStateMeetsTheInvariant : Obligations.ResetStateMeetsTheInvariant := by
  unfold Obligations.ResetStateMeetsTheInvariant
  decide

/-! ### What the invariant says in each phase -/

theorem phaseOk_of_idle {s : State} (h : s.phase = .idle) : s.phaseOk = true := by
  simp [State.phaseOk, h]

theorem phaseOk_enc_iff {s : State} (h : s.phase = .enc) : s.phaseOk = true ↔ s.op = .encode ∨ s.op = .emit := by
  simp [State.phaseOk, h]

theorem phaseOk_flush_iff {s : State} (h : s.phase = .flush) :
    s.phaseOk = true ↔ s.op = .emit ∧ 1 ≤ s.flen.toNat ∧ s.flen.toNat ≤ Config.obufBytes := by
  simp [State.phaseOk, h]

theorem phaseOk_tx_iff {s : State} (h : s.phase = .tx) :
    s.phaseOk = true ↔ s.op = .emit ∧ s.k.toNat < s.flen.toNat ∧ s.flen.toNat ≤ Config.obufBytes := by
  simp [State.phaseOk, h]

/-- The operation in progress is one that scans, over the buffer that it scans (R150, R198). -/
def State.scanOperationOk (s : State) : Prop :=
  s.op = .decode ∧ s.len = s.inLen ∨ s.op = .receive ∧ s.cfg.rxPresent = true ∧ s.len = s.wlen

theorem phaseOk_scan_iff {s : State} (h : s.phase = .scan) :
    s.phaseOk = true ↔ s.scanOperationOk ∧ s.scanOk := by
  simp [State.phaseOk, h, State.scanOperationOk]

theorem phaseOk_arm_iff {s : State} (h : s.phase = .arm) :
    s.phaseOk = true ↔ s.op = .receive ∧ s.cfg.rxPresent = true ∧ s.wlen = 0#16 ∧ s.full = false := by
  simp [State.phaseOk, h]

theorem phaseOk_drain_iff {s : State} (h : s.phase = .drain) :
    s.phaseOk = true ↔ s.op = .receive ∧ s.cfg.rxPresent = true ∧ 1 ≤ s.wlen.toNat ∧
      s.wlen.toNat ≤ s.cfg.ibufBytes ∧ s.full = false := by
  simp [State.phaseOk, h]

theorem legal_iff (p : Params) :
    p.legal = true ↔ 257 ≤ p.ibufBytes ∧ p.ibufBytes ≤ 65535 ∧ p.base % Config.windowBytes = 0 := by
  simp [Params.legal]

/-! ### The host's part of a cycle -/

/-- The start of a cycle and a host access change nothing that the invariant speaks of. -/
theorem inv_beginCycle {s : State} (c : CycleIn) (h : s.Inv) : (s.beginCycle c).Inv := h

theorem inv_withAccess {s : State} (overrun : Bool) (rdata : Option Word) (draw : Nat) (h : s.Inv) :
    (s.withAccess overrun rdata draw).Inv := h

/-- A reset empties the arrays and clears the lengths, whatever they were (R300). -/
theorem inv_applyReset {s : State} (hlegal : s.cfg.legal = true) : s.applyReset.Inv :=
  ⟨hlegal, ⟨rfl, rfl, rfl, rfl, rfl, rfl⟩, ⟨Nat.zero_le _, Nat.zero_le _, Nat.zero_le _, Nat.zero_le _⟩, rfl⟩

theorem inLenOf_le (s : State) (v : Word) : (s.inLenOf v).toNat ≤ s.cfg.ibufBytes := by
  rw [State.inLenOf, BitVec.toNat_ofNat]
  exact (Nat.mod_le _ _).trans (Nat.min_le_right _ _)

/-- Entry into SCAN: the cursor is at 0 and no frame is found yet (R161). -/
theorem inv_enterScan {s : State} {len : BitVec 16} (hlegal : s.cfg.legal = true) (harrays : s.arraysOk)
    (hlengths : s.lengthsOk) (hlen : len.toNat ≤ s.cfg.ibufBytes) (hop : (s.enterScan len).scanOperationOk) :
    (s.enterScan len).Inv :=
  ⟨hlegal, harrays, hlengths, (phaseOk_scan_iff rfl).mpr ⟨hop, hlen, by simp⟩⟩

theorem inv_idleEffect {s t : State} (h : s.Inv) (hidle : s.phase = .idle) (heffect : idleEffect s t) : t.Inv := by
  obtain ⟨hlegal, harrays, hlengths, hphase⟩ := h
  obtain ⟨hinLen, hrest⟩ := hlengths
  obtain ⟨v, rfl⟩ | ⟨v, rfl⟩ | ⟨v, rfl⟩ | ⟨i, b, hi, rfl⟩ | rfl | rfl | rfl | rfl | rfl := heffect
  · exact ⟨hlegal, harrays, ⟨hinLen, hrest⟩, hphase⟩
  · exact ⟨hlegal, harrays, ⟨hinLen, hrest⟩, hphase⟩
  · exact ⟨hlegal, harrays, ⟨inLenOf_le s v, hrest⟩, phaseOk_of_idle hidle⟩
  · obtain ⟨hwf, hbelow, hothers⟩ := harrays
    exact ⟨hlegal, ⟨Memory.wf_write _ _ _ hwf, Memory.below_write _ _ _ _ hbelow hi, hothers⟩, ⟨hinLen, hrest⟩, hphase⟩
  · exact ⟨hlegal, harrays, ⟨hinLen, hrest⟩, (phaseOk_enc_iff rfl).mpr (.inl rfl)⟩
  · exact ⟨hlegal, harrays, ⟨hinLen, hrest⟩, (phaseOk_enc_iff rfl).mpr (.inr rfl)⟩
  · exact inv_enterScan hlegal harrays ⟨hinLen, hrest⟩ hinLen (.inl ⟨rfl, rfl⟩)
  · obtain ⟨hrx, h⟩ | ⟨-, h⟩ := startReceive_cases s
    · rw [h]
      exact ⟨hlegal, harrays, ⟨hinLen, hrest⟩, (phaseOk_arm_iff rfl).mpr ⟨rfl, hrx, rfl, rfl⟩⟩
    · rw [h]
      exact ⟨hlegal, harrays, ⟨hinLen, hrest⟩, phaseOk_of_idle rfl⟩
  · exact ⟨hlegal, harrays, ⟨hinLen, hrest⟩, phaseOk_of_idle rfl⟩

/-! ### The controller's phases -/

/-- A frame fits OBUF, and its length fits the registers that hold it. -/
theorem frame_length_of_encodePayload {p f : List Byte} (h : encodePayload p = .frame f) :
    1 ≤ f.length ∧ f.length ≤ 257 := by
  obtain ⟨-, hlarge⟩ | ⟨-, f', hf, hpos, hle⟩ := encodePayload_cases p
  · rw [hlarge] at h
    cases h
  · obtain rfl : f' = f := Encoded.frame.inj (hf.symm.trans h)
    exact ⟨hpos, hle⟩

theorem flen_toNat {f : List Byte} (h : f.length ≤ 257) : (BitVec.ofNat 9 f.length).toNat = f.length := by
  rw [BitVec.toNat_ofNat]
  omega

theorem inv_encStep {s : State} (h : s.Inv) : (encStep s).Inv := by
  obtain ⟨hlegal, ⟨hibuf, hibufB, hobuf, hobufB, hmsg⟩, ⟨hinLen, houtLen, hcounts⟩, -⟩ := h
  have hwritten {f : List Byte} (hle : f.length ≤ 257) :
      (s.obuf.writeList 0 f).wf = true ∧ (s.obuf.writeList 0 f).below Config.obufBytes = true :=
    ⟨Memory.wf_writeList _ _ _ hobuf, Memory.below_writeList _ _ _ _ hobufB (by simpa [Config.obufBytes] using hle)⟩
  obtain ⟨-, he⟩ | ⟨f, hf, hop, he⟩ | ⟨f, hf, hop, he⟩ := encStep_cases s
  · rw [he]
    exact ⟨hlegal, ⟨hibuf, hibufB, hobuf, hobufB, hmsg⟩, ⟨hinLen, Nat.zero_le _, hcounts⟩, phaseOk_of_idle rfl⟩
  · obtain ⟨hpos, hle⟩ := frame_length_of_encodePayload hf
    obtain ⟨hwf, hbelow⟩ := hwritten hle
    rw [he]
    refine ⟨hlegal, ⟨hibuf, hibufB, hwf, hbelow, hmsg⟩, ⟨hinLen, houtLen, hcounts⟩, (phaseOk_flush_iff rfl).mpr ?_⟩
    rw [flen_toNat hle]
    exact ⟨hop, hpos, hle⟩
  · obtain ⟨hpos, hle⟩ := frame_length_of_encodePayload hf
    obtain ⟨hwf, hbelow⟩ := hwritten hle
    rw [he]
    refine ⟨hlegal, ⟨hibuf, hibufB, hwf, hbelow, hmsg⟩, ⟨hinLen, ?_, hcounts⟩, phaseOk_of_idle rfl⟩
    exact (flen_toNat hle).trans_le hle

theorem inv_flushStep {s : State} (h : s.Inv) (hphase : s.phase = .flush) : (flushStep s).Inv := by
  obtain ⟨hlegal, harrays, hlengths, hok⟩ := h
  obtain ⟨hop, hpos, hle⟩ := (phaseOk_flush_iff hphase).mp hok
  exact ⟨hlegal, harrays, hlengths, (phaseOk_tx_iff rfl).mpr ⟨hop, hpos, hle⟩⟩

/-- The index of the next byte to transmit does not wrap before the frame's end. -/
theorem k_add_one_toNat {s : State} (h : s.k.toNat < s.flen.toNat) : (s.k + 1#9).toNat = s.k.toNat + 1 := by
  have := s.flen.isLt
  rw [BitVec.toNat_add, BitVec.toNat_ofNat]
  omega

theorem inv_txStep {s : State} (ready : Bool) (h : s.Inv) (hphase : s.phase = .tx) : (txStep ready s).Inv := by
  obtain ⟨hlegal, harrays, ⟨hinLen, houtLen, hcounts⟩, hok⟩ := h
  obtain ⟨hop, hlt, hle⟩ := (phaseOk_tx_iff hphase).mp hok
  obtain ⟨-, he⟩ | ⟨-, hmore, he⟩ | ⟨-, hlast, he⟩ := txStep_cases ready s
  · rw [he]
    exact ⟨hlegal, harrays, ⟨hinLen, houtLen, hcounts⟩, hok⟩
  · have hnext : (s.k + 1#9).toNat < s.flen.toNat := by
      rw [k_add_one_toNat hlt]
      omega
    rw [he]
    exact ⟨hlegal, harrays, ⟨hinLen, houtLen, hcounts⟩, (phaseOk_tx_iff (by exact hphase)).mpr ⟨hop, hnext, hle⟩⟩
  · rw [he]
    exact ⟨hlegal, harrays, ⟨hinLen, hle, hcounts⟩, phaseOk_of_idle rfl⟩

/-- The registers that report a scan take its counters without loss (R163, log 16). -/
theorem scan_counts_in_range {s : State} (h : s.scanOk) :
    s.n.toNat ≤ s.cfg.msgSlots ∧ (s.last.setWidth 16).toNat ≤ s.cfg.ibufBytes := by
  obtain ⟨hlen, hq, hlast, hn⟩ := h
  rw [BitVec.toNat_setWidth, Params.msgSlots]
  omega

theorem inv_finishScan {s : State} (h : s.Inv) (hphase : s.phase = .scan) : (finishScan s).Inv := by
  obtain ⟨hlegal, harrays, ⟨hinLen, houtLen, -⟩, hok⟩ := h
  obtain ⟨hop, hscan⟩ := (phaseOk_scan_iff hphase).mp hok
  obtain ⟨hlen, -⟩ := id hscan
  obtain ⟨hreceive, he⟩ | ⟨-, he⟩ := finishScan_cases s
  · have hwlen : s.wlen.toNat ≤ s.cfg.ibufBytes := by
      obtain ⟨hdecode, -⟩ | ⟨-, -, hwlen⟩ := hop
      · rw [hreceive] at hdecode
        cases hdecode
      · exact hwlen ▸ hlen
    rw [he]
    exact ⟨hlegal, harrays, ⟨hwlen, houtLen, scan_counts_in_range hscan⟩, phaseOk_of_idle rfl⟩
  · rw [he]
    exact ⟨hlegal, harrays, ⟨hinLen, houtLen, scan_counts_in_range hscan⟩, phaseOk_of_idle rfl⟩

theorem inv_scanStep {s : State} (h : s.Inv) (hphase : s.phase = .scan) : (scanStep s).Inv := by
  obtain ⟨hlegal, ⟨hibuf, hibufB, hobuf, hobufB, hmsg, hmsgB⟩, hlengths, hok⟩ := id h
  obtain ⟨hop, hlen, hq, hlast, hn⟩ := (phaseOk_scan_iff hphase).mp hok
  obtain ⟨-, hmax, -⟩ := (legal_iff _).mp hlegal
  obtain ⟨-, he⟩ | ⟨hroom, he⟩ | ⟨l, -, hl, -, hfits, -, -, he⟩ := scanStep_cases s
  · rw [he]
    exact inv_finishScan h hphase
  · have hnext : (s.q + 1#17).toNat = s.q.toNat + 1 := by bv_omega
    rw [he]
    refine ⟨hlegal, ⟨hibuf, hibufB, hobuf, hobufB, hmsg, hmsgB⟩, hlengths, (phaseOk_scan_iff (by exact hphase)).mpr ⟨hop, hlen, ?_⟩⟩
    dsimp only
    omega
  · have hend : (BitVec.ofNat 17 (s.q.toNat + l + 2)).toNat = s.q.toNat + l + 2 := by
      rw [BitVec.toNat_ofNat]
      omega
    have hslot : s.n.toNat < s.cfg.msgSlots := by
      rw [Params.msgSlots]
      omega
    have hcount : (s.n + 1#16).toNat = s.n.toNat + 1 := by bv_omega
    rw [he]
    refine ⟨hlegal, ⟨hibuf, hibufB, hobuf, hobufB, Memory.wf_write _ _ _ hmsg, Memory.below_write _ _ _ _ hmsgB hslot⟩,
      hlengths, (phaseOk_scan_iff (by exact hphase)).mpr ⟨hop, hlen, ?_⟩⟩
    dsimp only
    omega

theorem inv_scanSteps {s : State} (work : Nat) (h : s.Inv) : (scanSteps work s).Inv :=
  scanSteps_induction State.Inv (fun _ hphase hinv => inv_scanStep hinv hphase) work s h

/-- A received byte is written inside IBUF, so the arrays stay as they must be (R195). -/
theorem arraysOk_popInto {s : State} {i : Nat} (b : Byte) (rest : List Byte) (h : s.arraysOk)
    (hi : i < s.cfg.ibufBytes) : (s.popInto i b rest).arraysOk := by
  obtain ⟨hibuf, hibufB, hothers⟩ := h
  exact ⟨Memory.wf_write _ _ _ hibuf, Memory.below_write _ _ _ _ hibufB hi, hothers⟩

theorem inv_armStep {s : State} (tick : Bool) (h : s.Inv) (hphase : s.phase = .arm) : (armStep tick s).Inv := by
  obtain ⟨hlegal, harrays, hlengths, hok⟩ := id h
  obtain ⟨hop, hrx, hwlen, hfull⟩ := (phaseOk_arm_iff hphase).mp hok
  obtain ⟨hmin, -⟩ := (legal_iff _).mp hlegal
  obtain ⟨b, rest, -, he⟩ | ⟨-, -, he⟩ | ⟨-, -, -, he⟩ | ⟨-, -, -, he⟩ := armStep_cases tick s
  · have harrays' := arraysOk_popInto b rest harrays (by omega : 0 < s.cfg.ibufBytes)
    have hone : (1#16).toNat ≤ s.cfg.ibufBytes := le_trans (by decide) hmin
    rw [he]
    exact ⟨hlegal, harrays', hlengths, (phaseOk_drain_iff rfl).mpr ⟨hop, hrx, le_rfl, hone, hfull⟩⟩
  · rw [he]
    exact inv_enterScan hlegal harrays hlengths (Nat.zero_le _) (.inr ⟨hop, hrx, hwlen.symm⟩)
  · rw [he]
    exact ⟨hlegal, harrays, hlengths, hok⟩
  · rw [he]
    exact h

theorem inv_drainStep {s : State} (tick : Bool) (h : s.Inv) (hphase : s.phase = .drain) : (drainStep tick s).Inv := by
  obtain ⟨hlegal, harrays, hlengths, hok⟩ := id h
  obtain ⟨hop, hrx, hpos, hwlen, hfull⟩ := (phaseOk_drain_iff hphase).mp hok
  obtain ⟨-, hmax, -⟩ := (legal_iff _).mp hlegal
  obtain ⟨b, rest, -, hroom, he⟩ | ⟨-, -, he⟩ | ⟨-, -, he⟩ | ⟨-, -, -, he⟩ | ⟨-, -, -, he⟩ := drainStep_cases tick s
  · have harrays' := arraysOk_popInto b rest harrays hroom
    have hnext : (s.wlen + 1#16).toNat = s.wlen.toNat + 1 := by bv_omega
    rw [he]
    refine ⟨hlegal, harrays', hlengths, (phaseOk_drain_iff (by exact hphase)).mpr ⟨hop, hrx, ?_, ?_, hfull⟩⟩
    · exact hnext ▸ Nat.le_add_left ..
    · exact hnext ▸ hroom
  · rw [he]
    exact inv_enterScan hlegal harrays hlengths hwlen (.inr ⟨hop, hrx, rfl⟩)
  · rw [he]
    exact inv_enterScan hlegal harrays hlengths hwlen (.inr ⟨hop, hrx, rfl⟩)
  · rw [he]
    exact ⟨hlegal, harrays, hlengths, hok⟩
  · rw [he]
    exact h

theorem inv_controllerStep {s : State} (c : CycleIn) (h : s.Inv) : (controllerStep c s).Inv := by
  cases hphase : s.phase with
  | idle => rwa [controllerStep_idle c s hphase]
  | enc =>
    rw [controllerStep_enc c s hphase]
    split_ifs
    · exact h
    · exact inv_encStep h
  | flush =>
    rw [controllerStep_flush c s hphase]
    exact inv_flushStep h hphase
  | tx =>
    rw [controllerStep_tx c s hphase]
    exact inv_txStep c.txReady h hphase
  | scan =>
    rw [controllerStep_scan c s hphase]
    exact inv_scanSteps c.work h
  | arm =>
    rw [controllerStep_arm c s hphase]
    exact inv_armStep c.tick h hphase
  | drain =>
    rw [controllerStep_drain c s hphase]
    exact inv_drainStep c.tick h hphase

/-- Settles O59: the reset, the host's effects in IDLE and the controller's step each keep the invariant, and no other
part of a cycle touches what it speaks of. -/
theorem everyStepKeepsTheInvariant : Obligations.EveryStepKeepsTheInvariant := by
  intro s t hinv h
  have hbegin := inv_beginCycle s.nextCycle hinv
  obtain ⟨-, o, r, d, rfl⟩ | ⟨-, hidle, ⟨o, r, d, rfl⟩ | heffect⟩ | ⟨-, -, o, r, d, rfl⟩ := step_cases h
  · exact inv_withAccess o r d (inv_applyReset (legal_of_step (s := s) h))
  · exact inv_withAccess o r d hbegin
  · exact inv_idleEffect hbegin hidle heffect
  · exact inv_controllerStep s.nextCycle (inv_withAccess o r d hbegin)

end Sys2Proof.Machine
end

section
/-!
PROOFS. What every step leaves alone (spec 10_state.md section 5, 20_memory.md R74, 60_exceptions.md R285 to R288): the
frames of the host's access, of the host's effects in IDLE and of the controller's phases, and from them the statements
about any step.
-/

namespace Sys2Proof.Machine

/-- Settles O57: the fields of the reset state, read off. -/
theorem resetStateHoldsTheResetValues : Obligations.ResetStateHoldsTheResetValues :=
  ⟨rfl, rfl, rfl, rfl, rfl, rfl, rfl, rfl, rfl, rfl, rfl, rfl, rfl, rfl, rfl, rfl, rfl, rfl, fun _ => ⟨rfl, rfl, rfl⟩⟩

/-! ### What the controller never writes -/

/-- The part of the state that the controller only reads, everything else at its reset value. -/
def State.hostSide (s : State) : State :=
  { State.reset with
    cfg := s.cfg, overrun := s.overrun, latencyMs := s.latencyMs, timeoutMs := s.timeoutMs, op := s.op
    rdata := s.rdata, sched := s.sched, epoch := s.epoch, draw := s.draw }

theorem encStep_hostSide (s : State) : (encStep s).hostSide = s.hostSide := by
  obtain ⟨-, h⟩ | ⟨f, -, -, h⟩ | ⟨f, -, -, h⟩ := encStep_cases s <;> rw [h] <;> rfl

theorem txStep_hostSide (ready : Bool) (s : State) : (txStep ready s).hostSide = s.hostSide := by
  obtain ⟨-, h⟩ | ⟨-, -, h⟩ | ⟨-, -, h⟩ := txStep_cases ready s <;> rw [h] <;> rfl

theorem finishScan_hostSide (s : State) : (finishScan s).hostSide = s.hostSide := by
  obtain ⟨-, h⟩ | ⟨-, h⟩ := finishScan_cases s <;> rw [h] <;> rfl

theorem scanStep_hostSide (s : State) : (scanStep s).hostSide = s.hostSide := by
  obtain ⟨-, h⟩ | ⟨-, h⟩ | ⟨l, -, -, -, -, -, -, h⟩ := scanStep_cases s
  · rw [h, finishScan_hostSide]
  · rw [h]; rfl
  · rw [h]; rfl

theorem scanSteps_hostSide (work : Nat) (s : State) : (scanSteps work s).hostSide = s.hostSide :=
  scanSteps_induction (fun t => t.hostSide = s.hostSide) (fun t _ h => (scanStep_hostSide t).trans h) work s rfl

theorem armStep_hostSide (tick : Bool) (s : State) : (armStep tick s).hostSide = s.hostSide := by
  obtain ⟨b, rest, -, h⟩ | ⟨-, -, h⟩ | ⟨-, -, -, h⟩ | ⟨-, -, -, h⟩ := armStep_cases tick s <;> rw [h] <;> rfl

theorem drainStep_hostSide (tick : Bool) (s : State) : (drainStep tick s).hostSide = s.hostSide := by
  obtain ⟨b, rest, -, -, h⟩ | ⟨-, -, h⟩ | ⟨-, -, h⟩ | ⟨-, -, -, h⟩ | ⟨-, -, -, h⟩ := drainStep_cases tick s <;>
    rw [h] <;> rfl

theorem controllerStep_hostSide (c : CycleIn) (s : State) : (controllerStep c s).hostSide = s.hostSide := by
  cases hphase : s.phase with
  | idle => rw [controllerStep_idle c s hphase]
  | enc =>
    rw [controllerStep_enc c s hphase]
    split_ifs
    · rfl
    · exact encStep_hostSide s
  | flush => rw [controllerStep_flush c s hphase]; rfl
  | tx => rw [controllerStep_tx c s hphase, txStep_hostSide]
  | scan => rw [controllerStep_scan c s hphase, scanSteps_hostSide]
  | arm => rw [controllerStep_arm c s hphase, armStep_hostSide]
  | drain => rw [controllerStep_drain c s hphase, drainStep_hostSide]

theorem controllerStep_keeps (c : CycleIn) (s : State) :
    (controllerStep c s).cfg = s.cfg ∧ (controllerStep c s).overrun = s.overrun ∧
      (controllerStep c s).latencyMs = s.latencyMs ∧ (controllerStep c s).timeoutMs = s.timeoutMs ∧
      (controllerStep c s).op = s.op := by
  have h := controllerStep_hostSide c s
  simp only [State.hostSide, State.mk.injEq] at h
  tauto

/-! ### What the host's effects in IDLE leave alone -/

/-- The transport's side of the state: its input, the transmit stream and the driven outputs. -/
def State.transport (s : State) : List Byte × List Byte × Pins := (s.rxFifo, s.wire, s.pins)

theorem idleEffect_frame {s t : State} (h : idleEffect s t) :
    t.cfg = s.cfg ∧ t.overrun = s.overrun ∧ t.transport = s.transport := by
  obtain ⟨v, rfl⟩ | ⟨v, rfl⟩ | ⟨v, rfl⟩ | ⟨i, b, -, rfl⟩ | rfl | rfl | rfl | rfl | rfl := h
  case inr.inr.inr.inr.inr.inr.inr.inl =>
    obtain ⟨-, h⟩ | ⟨-, h⟩ := startReceive_cases s <;> rw [h] <;> exact ⟨rfl, rfl, rfl⟩
  all_goals exact ⟨rfl, rfl, rfl⟩

/-- Settles O60: neither the reset, nor a host access, nor the controller writes the parameters. -/
theorem noStepChangesTheParameters : Obligations.NoStepChangesTheParameters := by
  intro s t h
  obtain ⟨-, o, r, d, rfl⟩ | ⟨-, -, ⟨o, r, d, rfl⟩ | heffect⟩ | ⟨-, -, o, r, d, rfl⟩ := step_cases h
  · rfl
  · rfl
  · exact (idleEffect_frame heffect).1
  · exact (controllerStep_keeps s.nextCycle _).1

/-! ### The result registers -/

/-- The registers that an operation reports its outcome in (R48). -/
def State.resultRegisters (s : State) : BitVec 9 × BitVec 16 × BitVec 16 × BitVec 16 × Result × Bool :=
  (s.outLen, s.msgCount, s.consumed, s.inLen, s.result, s.windowFull)

/-- An operation that the host starts leaves them; a host effect that writes one of them stays in IDLE. -/
theorem idleEffect_resultRegisters {s t : State} (hidle : s.phase = .idle) (h : idleEffect s t)
    (hphase : t.phase ≠ .idle) : t.resultRegisters = s.resultRegisters := by
  obtain ⟨v, rfl⟩ | ⟨v, rfl⟩ | ⟨v, rfl⟩ | ⟨i, b, -, rfl⟩ | rfl | rfl | rfl | rfl | rfl := h
  case inr.inr.inl => exact absurd hidle hphase
  case inr.inr.inr.inr.inr.inr.inr.inl =>
    obtain ⟨-, h⟩ | ⟨-, h⟩ := startReceive_cases s
    · rw [h]; rfl
    · rw [h] at hphase; exact absurd rfl hphase
  case inr.inr.inr.inr.inr.inr.inr.inr => exact absurd rfl hphase
  all_goals rfl

theorem encStep_resultRegisters {s : State} (hphase : (encStep s).phase ≠ .idle) :
    (encStep s).resultRegisters = s.resultRegisters := by
  obtain ⟨-, h⟩ | ⟨f, -, -, h⟩ | ⟨f, -, -, h⟩ := encStep_cases s <;> rw [h] at hphase ⊢
  · exact absurd rfl hphase
  · rfl
  · exact absurd rfl hphase

theorem txStep_resultRegisters {ready : Bool} {s : State} (hphase : (txStep ready s).phase ≠ .idle) :
    (txStep ready s).resultRegisters = s.resultRegisters := by
  obtain ⟨-, h⟩ | ⟨-, -, h⟩ | ⟨-, -, h⟩ := txStep_cases ready s <;> rw [h] at hphase ⊢
  · rfl
  · rfl
  · exact absurd rfl hphase

theorem finishScan_phase (s : State) : (finishScan s).phase = .idle := by
  obtain ⟨-, h⟩ | ⟨-, h⟩ := finishScan_cases s <;> rw [h] <;> rfl

theorem scanStep_resultRegisters {s : State} (hphase : (scanStep s).phase ≠ .idle) :
    (scanStep s).resultRegisters = s.resultRegisters := by
  obtain ⟨-, h⟩ | ⟨-, h⟩ | ⟨l, -, -, -, -, -, -, h⟩ := scanStep_cases s <;> rw [h] at hphase ⊢
  · exact absurd (finishScan_phase s) hphase
  · rfl
  · rfl

theorem scanSteps_resultRegisters {work : Nat} {s : State} (hphase : (scanSteps work s).phase ≠ .idle) :
    (scanSteps work s).resultRegisters = s.resultRegisters := by
  have hkept : (scanSteps work s).phase ≠ .idle → (scanSteps work s).resultRegisters = s.resultRegisters :=
    scanSteps_induction (fun t => t.phase ≠ .idle → t.resultRegisters = s.resultRegisters)
      (fun t hscan h hphase => (scanStep_resultRegisters hphase).trans (h (by simp [hscan]))) work s fun _ => rfl
  exact hkept hphase

theorem armStep_resultRegisters (tick : Bool) (s : State) : (armStep tick s).resultRegisters = s.resultRegisters := by
  obtain ⟨b, rest, -, h⟩ | ⟨-, -, h⟩ | ⟨-, -, -, h⟩ | ⟨-, -, -, h⟩ := armStep_cases tick s <;> rw [h] <;> rfl

theorem drainStep_resultRegisters (tick : Bool) (s : State) : (drainStep tick s).resultRegisters = s.resultRegisters := by
  obtain ⟨b, rest, -, -, h⟩ | ⟨-, -, h⟩ | ⟨-, -, h⟩ | ⟨-, -, -, h⟩ | ⟨-, -, -, h⟩ := drainStep_cases tick s <;>
    rw [h] <;> rfl

theorem controllerStep_resultRegisters {c : CycleIn} {s : State} (h : (controllerStep c s).phase ≠ .idle) :
    (controllerStep c s).resultRegisters = s.resultRegisters := by
  cases hphase : s.phase with
  | idle => rw [controllerStep_idle c s hphase]
  | enc =>
    rw [controllerStep_enc c s hphase] at h ⊢
    split_ifs at h ⊢
    · rfl
    · exact encStep_resultRegisters h
  | flush => rw [controllerStep_flush c s hphase]; rfl
  | tx => rw [controllerStep_tx c s hphase] at h ⊢; exact txStep_resultRegisters h
  | scan => rw [controllerStep_scan c s hphase] at h ⊢; exact scanSteps_resultRegisters h
  | arm => rw [controllerStep_arm c s hphase, armStep_resultRegisters]
  | drain => rw [controllerStep_drain c s hphase, drainStep_resultRegisters]

/-- Settles O50: whatever leaves an operation in progress, the start of one or a step of its controller, leaves the
result registers. -/
theorem resultRegistersChangeOnlyAtCompletion : Obligations.ResultRegistersChangeOnlyAtCompletion := by
  intro s t h hrst hphase
  suffices hregs : t.resultRegisters = s.resultRegisters by
    simpa only [State.resultRegisters, Prod.mk.injEq] using hregs
  obtain ⟨hreset, -⟩ | ⟨-, hidle, ⟨o, r, d, rfl⟩ | heffect⟩ | ⟨-, -, o, r, d, rfl⟩ := step_cases h
  · rw [hrst] at hreset
    cases hreset
  · exact absurd hidle hphase
  · exact idleEffect_resultRegisters (s := s.beginCycle s.nextCycle) hidle heffect hphase
  · exact controllerStep_resultRegisters hphase

/-! ### The inputs of a running operation -/

theorem encStep_inputs (s : State) : (encStep s).inLen = s.inLen ∧ (encStep s).ibuf = s.ibuf := by
  obtain ⟨-, h⟩ | ⟨f, -, -, h⟩ | ⟨f, -, -, h⟩ := encStep_cases s <;> rw [h] <;> exact ⟨rfl, rfl⟩

theorem txStep_inputs (ready : Bool) (s : State) :
    (txStep ready s).inLen = s.inLen ∧ (txStep ready s).ibuf = s.ibuf := by
  obtain ⟨-, h⟩ | ⟨-, -, h⟩ | ⟨-, -, h⟩ := txStep_cases ready s <;> rw [h] <;> exact ⟨rfl, rfl⟩

theorem scanStep_inputs (s : State) :
    ((scanStep s).inLen = s.inLen ∨ s.op = .receive ∧ (scanStep s).phase = .idle) ∧ (scanStep s).ibuf = s.ibuf := by
  obtain ⟨-, h⟩ | ⟨-, h⟩ | ⟨l, -, -, -, -, -, -, h⟩ := scanStep_cases s
  · rw [h]
    obtain ⟨hop, h⟩ | ⟨-, h⟩ := finishScan_cases s
    · rw [h]; exact ⟨.inr ⟨hop, rfl⟩, rfl⟩
    · rw [h]; exact ⟨.inl rfl, rfl⟩
  · rw [h]; exact ⟨.inl rfl, rfl⟩
  · rw [h]; exact ⟨.inl rfl, rfl⟩

theorem scanSteps_inputs (work : Nat) (s : State) :
    ((scanSteps work s).inLen = s.inLen ∨ s.op = .receive ∧ (scanSteps work s).phase = .idle) ∧
      (scanSteps work s).ibuf = s.ibuf := by
  suffices h : (scanSteps work s).op = s.op ∧ ((scanSteps work s).inLen = s.inLen ∨
      s.op = .receive ∧ (scanSteps work s).phase = .idle) ∧ (scanSteps work s).ibuf = s.ibuf from h.2
  refine scanSteps_induction (fun t => t.op = s.op ∧ (t.inLen = s.inLen ∨ s.op = .receive ∧ t.phase = .idle) ∧
    t.ibuf = s.ibuf) (fun t hscan ⟨hop, hinLen, hibuf⟩ => ?_) work s ⟨rfl, .inl rfl, rfl⟩
  have hkept : t.inLen = s.inLen := hinLen.resolve_right fun ⟨_, hidle⟩ => by simp [hscan] at hidle
  obtain ⟨hstep, hibuf'⟩ := scanStep_inputs t
  rw [hop, hkept] at hstep
  exact ⟨(congrArg State.op (scanStep_hostSide t)).trans hop, hstep, hibuf'.trans hibuf⟩

theorem receiver_inLen (tick : Bool) (s : State) :
    (armStep tick s).inLen = s.inLen ∧ (drainStep tick s).inLen = s.inLen := by
  have harm := armStep_resultRegisters tick s
  have hdrain := drainStep_resultRegisters tick s
  simp only [State.resultRegisters, Prod.mk.injEq] at harm hdrain
  tauto

theorem controllerStep_inputs (c : CycleIn) (s : State) :
    ((controllerStep c s).inLen = s.inLen ∨ s.op = .receive ∧ s.phase = .scan ∧ (controllerStep c s).phase = .idle) ∧
      ((controllerStep c s).ibuf = s.ibuf ∨ s.phase = .arm ∨ s.phase = .drain) := by
  cases hphase : s.phase with
  | idle => rw [controllerStep_idle c s hphase]; exact ⟨.inl rfl, .inl rfl⟩
  | enc =>
    rw [controllerStep_enc c s hphase]
    split_ifs
    · exact ⟨.inl rfl, .inl rfl⟩
    · exact (encStep_inputs s).imp .inl .inl
  | flush => rw [controllerStep_flush c s hphase]; exact ⟨.inl rfl, .inl rfl⟩
  | tx => rw [controllerStep_tx c s hphase]; exact (txStep_inputs c.txReady s).imp .inl .inl
  | scan =>
    rw [controllerStep_scan c s hphase]
    exact (scanSteps_inputs c.work s).imp (Or.imp_right fun ⟨hop, hidle⟩ => ⟨hop, rfl, hidle⟩) .inl
  | arm => rw [controllerStep_arm c s hphase]; exact ⟨.inl (receiver_inLen c.tick s).1, .inr (.inl rfl)⟩
  | drain => rw [controllerStep_drain c s hphase]; exact ⟨.inl (receiver_inLen c.tick s).2, .inr (.inr rfl)⟩

/-- Settles O51: a busy cycle is the controller's step, which only reads the two bounds and the opcode. -/
theorem operationInputsAreFixedWhileBusy : Obligations.OperationInputsAreFixedWhileBusy := by
  intro s t h hrst hbusy
  obtain ⟨hreset, -⟩ | ⟨-, hidle, -⟩ | ⟨-, -, o, r, d, rfl⟩ := step_cases h
  · rw [hrst] at hreset
    cases hreset
  · exact absurd hidle hbusy
  · obtain ⟨-, -, hlatency, htimeout, hop⟩ :=
      controllerStep_keeps s.nextCycle ((s.beginCycle s.nextCycle).withAccess o r d)
    exact ⟨hlatency, htimeout, hop, controllerStep_inputs s.nextCycle _⟩

/-! ### The transport -/

theorem encStep_transport (s : State) : (encStep s).transport = s.transport := by
  obtain ⟨-, h⟩ | ⟨f, -, -, h⟩ | ⟨f, -, -, h⟩ := encStep_cases s <;> rw [h] <;> rfl

theorem scanStep_transport (s : State) : (scanStep s).transport = s.transport := by
  obtain ⟨-, h⟩ | ⟨-, h⟩ | ⟨l, -, -, -, -, -, -, h⟩ := scanStep_cases s
  · rw [h]
    obtain ⟨-, h⟩ | ⟨-, h⟩ := finishScan_cases s <;> rw [h] <;> rfl
  · rw [h]; rfl
  · rw [h]; rfl

theorem scanSteps_transport (work : Nat) (s : State) : (scanSteps work s).transport = s.transport :=
  scanSteps_induction (fun t => t.transport = s.transport) (fun t _ h => (scanStep_transport t).trans h) work s rfl

/-- A receiving phase pops the oldest byte, or leaves the transport alone (R195, R198). -/
theorem receiver_transport (tick : Bool) (s t : State) (h : t = armStep tick s ∨ t = drainStep tick s) :
    t.transport = s.transport ∨
      ∃ b rest, s.rxFifo = b :: rest ∧ t.transport = (rest, s.wire, { Pins.quiet with rxPop := true }) := by
  obtain rfl | rfl := h
  · obtain ⟨b, rest, hfifo, h⟩ | ⟨-, -, h⟩ | ⟨-, -, -, h⟩ | ⟨-, -, -, h⟩ := armStep_cases tick s <;> rw [h]
    · exact .inr ⟨b, rest, hfifo, rfl⟩
    all_goals exact .inl rfl
  · obtain ⟨b, rest, hfifo, -, h⟩ | ⟨-, -, h⟩ | ⟨-, -, h⟩ | ⟨-, -, -, h⟩ | ⟨-, -, -, h⟩ := drainStep_cases tick s <;>
      rw [h]
    · exact .inr ⟨b, rest, hfifo, rfl⟩
    all_goals exact .inl rfl

/-- A TX cycle offers OBUF[k], and transfers it when the transport is ready (R288). -/
theorem txStep_transport (ready : Bool) (s : State) :
    (txStep ready s).transport = (s.rxFifo, if ready then s.wire ++ [s.obufAt s.k.toNat] else s.wire,
      { Pins.quiet with tx := some (s.obufAt s.k.toNat) }) := by
  obtain ⟨hr, h⟩ | ⟨hr, -, h⟩ | ⟨hr, -, h⟩ := txStep_cases ready s <;> rw [h, hr] <;> rfl

/-- Everything the controller can do to the transport: nothing, a flush, an offer, or a pop. -/
theorem controllerStep_transport_cases (c : CycleIn) (s : State) :
    (controllerStep c s).transport = s.transport ∨
    (s.phase = .flush ∧ (controllerStep c s).transport = ([], s.wire, { Pins.quiet with rxFlush := true })) ∨
    (s.phase = .tx ∧ (controllerStep c s).transport =
      (s.rxFifo, if c.txReady then s.wire ++ [s.obufAt s.k.toNat] else s.wire,
        { Pins.quiet with tx := some (s.obufAt s.k.toNat) })) ∨
    ((s.phase = .arm ∨ s.phase = .drain) ∧ ∃ b rest, s.rxFifo = b :: rest ∧
      (controllerStep c s).transport = (rest, s.wire, { Pins.quiet with rxPop := true })) := by
  cases hphase : s.phase with
  | idle => rw [controllerStep_idle c s hphase]; exact .inl rfl
  | enc =>
    rw [controllerStep_enc c s hphase]
    by_cases hwork : c.work = 0
    · rw [if_pos hwork]; exact .inl rfl
    · rw [if_neg hwork]; exact .inl (encStep_transport s)
  | flush => rw [controllerStep_flush c s hphase]; exact .inr (.inl ⟨rfl, rfl⟩)
  | tx => rw [controllerStep_tx c s hphase]; exact .inr (.inr (.inl ⟨rfl, txStep_transport c.txReady s⟩))
  | scan => rw [controllerStep_scan c s hphase]; exact .inl (scanSteps_transport c.work s)
  | arm =>
    rw [controllerStep_arm c s hphase]
    exact (receiver_transport c.tick s _ (.inl rfl)).imp_right fun h => .inr (.inr ⟨.inl rfl, h⟩)
  | drain =>
    rw [controllerStep_drain c s hphase]
    exact (receiver_transport c.tick s _ (.inr rfl)).imp_right fun h => .inr (.inr ⟨.inr rfl, h⟩)

/-- Everything a step can do to the transport, its cycle's arrivals being there already. -/
theorem step_transport_cases {s t : State} (h : step s = .next t) :
    t.transport = (s.rxFifo ++ s.nextCycle.arrive, s.wire, Pins.quiet) ∨
    (s.nextCycle.rst = false ∧
      ((s.phase = .flush ∧ t.transport = ([], s.wire, { Pins.quiet with rxFlush := true })) ∨
        (s.phase = .tx ∧ t.transport =
          (s.rxFifo ++ s.nextCycle.arrive,
            if s.nextCycle.txReady then s.wire ++ [s.obufAt s.k.toNat] else s.wire,
            { Pins.quiet with tx := some (s.obufAt s.k.toNat) })) ∨
        ((s.phase = .arm ∨ s.phase = .drain) ∧ ∃ b rest, s.rxFifo ++ s.nextCycle.arrive = b :: rest ∧
          t.transport = (rest, s.wire, { Pins.quiet with rxPop := true })))) := by
  obtain ⟨-, o, r, d, rfl⟩ | ⟨-, -, ⟨o, r, d, rfl⟩ | heffect⟩ | ⟨hrst, -, o, r, d, rfl⟩ := step_cases h
  · exact .inl rfl
  · exact .inl rfl
  · exact .inl (idleEffect_frame heffect).2.2
  · exact (controllerStep_transport_cases s.nextCycle _).imp id fun h => ⟨hrst, h⟩

theorem transport_eq_iff (s : State) (fifo wire : List Byte) (pins : Pins) :
    s.transport = (fifo, wire, pins) ↔ s.rxFifo = fifo ∧ s.wire = wire ∧ s.pins = pins := by
  simp [State.transport]

/-- Settles O52: of all that a step does to the transport, only TX's transfer adds to the stream. -/
theorem transmitStreamGrowsOnlyInTx : Obligations.TransmitStreamGrowsOnlyInTx := by
  intro s t h
  obtain h | ⟨hrst, ⟨-, h⟩ | ⟨htx, h⟩ | ⟨-, b, rest, -, h⟩⟩ := step_transport_cases h <;>
    obtain ⟨-, hwire, hpins⟩ := (transport_eq_iff ..).mp h
  · exact .inl hwire
  · exact .inl hwire
  · cases hready : s.nextCycle.txReady with
    | false => exact .inl (by simpa [hready] using hwire)
    | true => exact .inr ⟨htx, hrst, rfl, congrArg Pins.tx hpins, by simpa [hready] using hwire⟩
  · exact .inl hwire

/-- Settles O53: of all that a step does to the transport, only the flush and the pop take from its input. -/
theorem transportInputIsOnlyPoppedOrFlushed : Obligations.TransportInputIsOnlyPoppedOrFlushed := by
  intro s t h
  obtain h | ⟨hrst, ⟨hflush, h⟩ | ⟨-, h⟩ | ⟨hphase, b, rest, hfifo, h⟩⟩ := step_transport_cases h <;>
    (obtain ⟨hrx, -, hpins⟩ := (transport_eq_iff ..).mp h; rw [hpins, hrx])
  · exact .inl ⟨rfl, rfl, rfl⟩
  · exact .inr (.inl ⟨hflush, hrst, rfl, rfl, rfl⟩)
  · exact .inl ⟨rfl, rfl, rfl⟩
  · exact .inr (.inr ⟨hphase, hrst, rfl, rfl, b, hfifo⟩)

/-! ### OVERRUN -/

theorem whenIdle_keeps_overrun {s : State} {effect : State → State} (hset : s.overrun = true)
    (heffect : (effect s).overrun = s.overrun) : (s.whenIdle effect).overrun = true := by
  obtain ⟨-, h⟩ | ⟨-, h⟩ := whenIdle_cases s effect
  · rw [h]
  · rw [h, heffect, hset]

theorem startReceive_overrun (s : State) : s.startReceive.overrun = s.overrun := by
  obtain ⟨-, h⟩ | ⟨-, h⟩ := startReceive_cases s
  · rw [h]
  · rw [h]; rfl

theorem startOpcode_overrun (opcode : BitVec 4) (s : State) : (s.startOpcode opcode).overrun = s.overrun := by
  obtain h | h | h | h | h := startOpcode_cases opcode s <;> rw [h]
  case inr.inr.inr.inl => exact startReceive_overrun s
  all_goals rfl

theorem withAccess_keeps_overrun_of_read {s t : State} (hset : s.overrun = true)
    (h : (∃ v, t = s.respond v) ∨ t = s.respondFree) : t.overrun = true := by
  obtain ⟨v, rfl⟩ | rfl := h <;> exact hset

/-- An array read answers its read, whatever the phase. -/
theorem exec_array_read {i : Instr} {s t : State} (h : exec i s = .next t)
    (hi : (∃ j, i = .rdObuf j) ∨ (∃ j, i = .rdMsg j) ∨ ∃ j, i = .rdIbuf j) :
    (∃ v, t = s.respond v) ∨ t = s.respondFree := by
  obtain ⟨j, rfl⟩ | ⟨j, rfl⟩ | ⟨j, rfl⟩ := hi
  · simp only [exec, execRdObuf] at h
    split_ifs at h <;> cases h
    exacts [.inr rfl, .inl ⟨_, rfl⟩, .inl ⟨_, rfl⟩]
  · simp only [exec, execRdMsg] at h
    split_ifs at h <;> cases h
    exacts [.inr rfl, .inl ⟨_, rfl⟩, .inl ⟨_, rfl⟩]
  · simp only [exec, execRdIbuf] at h
    split_ifs at h <;> cases h
    exacts [.inr rfl, .inl ⟨_, rfl⟩, .inl ⟨_, rfl⟩]

/-- Only a write to STATUS can clear OVERRUN: the gate sets it or lets an effect through that keeps it. -/
theorem exec_keeps_overrun {i : Instr} {s t : State} (h : exec i s = .next t) (hset : s.overrun = true)
    (hi : ∀ v, i ≠ .wrStatus v) : t.overrun = true := by
  cases i with
  | wrStatus v => exact absurd rfl (hi v)
  | encode g | emit g | decode g | rsvd0 g | rsvd5 g | rsvd6 g | rsvd7 g | rsvd8F low g =>
    cases h; exact whenIdle_keeps_overrun hset rfl
  | receive g => cases h; exact whenIdle_keeps_overrun hset (startReceive_overrun s)
  | wrCmd v => cases h; exact whenIdle_keeps_overrun hset (startOpcode_overrun (opcodeOf v) s)
  | wrLatencyMs v | wrTimeoutMs v | wrInLen v => cases h; exact whenIdle_keeps_overrun hset rfl
  | wrIgnored off v => cases h; exact hset
  | wrIbuf j v =>
    obtain hj | hj := lt_or_ge j.toNat s.cfg.ibufBytes
    · rw [exec_wrIbuf_of_lt v hj] at h; cases h; exact whenIdle_keeps_overrun hset rfl
    · rw [exec_wrIbuf_of_le v hj] at h; cases h; exact hset
  | rdObuf j => exact withAccess_keeps_overrun_of_read hset (exec_array_read h (.inl ⟨j, rfl⟩))
  | rdMsg j => exact withAccess_keeps_overrun_of_read hset (exec_array_read h (.inr (.inl ⟨j, rfl⟩)))
  | rdIbuf j => exact withAccess_keeps_overrun_of_read hset (exec_array_read h (.inr (.inr ⟨j, rfl⟩)))
  | rdId | rdCaps | rdIbufSize | rdCmd | rdStatus | rdLatencyMs | rdTimeoutMs | rdInLen | rdOutLen | rdMsgCount
  | rdConsumed => cases h; exact hset
  | rdReserved off => cases h; exact hset

/-- An instruction that clears OVERRUN is the W1C write (R232). -/
theorem w1c_of_exec_clears_overrun {i : Instr} {s t : State} (h : exec i s = .next t) (hset : s.overrun = true)
    (hclear : t.overrun = false) : ∃ v, i = .wrStatus v ∧ v.getLsbD 9 = true := by
  by_cases hi : ∀ v, i ≠ .wrStatus v
  · rw [exec_keeps_overrun h hset hi] at hclear
    cases hclear
  · push Not at hi
    obtain ⟨v, rfl⟩ := hi
    obtain rfl : s.clearOverrun v = t := Host.Outcome.next.inj h
    simpa [hset] using hclear

theorem fetch_eq_instr {c : CycleIn} {s : State} {i : Instr} (h : fetch c s = .instr i) :
    ∃ r, c.host = some r ∧ decode s.cfg.base r = .ok i := by
  cases hhost : c.host with
  | none => simp [fetch, hhost] at h
  | some r =>
    refine ⟨r, rfl, ?_⟩
    cases hdecode : decode s.cfg.base r with
    | error e => simp [fetch, hhost, hdecode] at h
    | ok j => simpa [fetch, hhost, hdecode] using h

theorem afterAccess_overrun (c : CycleIn) (phase : Phase) (s : State) :
    (afterAccess c phase s).overrun = s.overrun := by
  unfold afterAccess
  split_ifs
  · rfl
  · exact (controllerStep_keeps c s).2.1

/-- Settles O54: neither the start of a cycle nor the controller touches OVERRUN, so it is the access that clears it. -/
theorem overrunIsClearedOnlyByW1cOrReset : Obligations.OverrunIsClearedOnlyByW1cOrReset := by
  intro s t h hset hclear
  obtain ⟨-, ⟨hrst, -⟩ | ⟨-, ⟨-, rfl⟩ | ⟨i, u, hfetch, hexec, rfl⟩⟩⟩ := step_next_cases s t h
  · exact .inl hrst
  · rw [afterAccess_overrun, beginCycle_overrun, hset] at hclear
    cases hclear
  · rw [afterAccess_overrun] at hclear
    obtain ⟨v, rfl, hbit⟩ := w1c_of_exec_clears_overrun hexec hset hclear
    obtain ⟨r, hhost, hdecode⟩ := fetch_eq_instr hfetch
    exact .inr ⟨r, v, hhost, hdecode, hbit⟩

end Sys2Proof.Machine
end

section
/-!
PROOFS. The host's accesses, row by row (spec 43_host_access.md R230 to R239; 20_memory.md R62 to R66): the register
reads with the layout of STATUS, the array reads, the writes in IDLE, and the offsets that read 0 and ignore writes.
-/

namespace Sys2Proof.Machine

/-! ### Register reads -/

/-- Settles O10: each row answers with its register's word. -/
theorem registerReadsReturnTheirValueAndChangeNothing : Obligations.RegisterReadsReturnTheirValueAndChangeNothing :=
  fun _ => ⟨rfl, rfl, rfl, rfl, rfl, rfl, rfl⟩

/-- STATUS as a number: each field in units of its lowest bit (R23). -/
theorem statusWord_toNat (s : State) :
    s.statusWord.toNat =
      s.busy.toNat + 2 ^ 4 * s.result.code.toNat + 2 ^ 8 * s.windowFull.toNat + 2 ^ 9 * s.overrun.toNat := by
  simp only [State.statusWord, toNat_append_eq_mul_add, BitVec.toNat_ofBool, BitVec.toNat_ofNat]
  omega

/-- A field of STATUS, from the lowest bit on (R23). -/
theorem statusWord_field (s : State) (lo width : Nat) :
    (s.statusWord.extractLsb' lo width).toNat =
      (s.busy.toNat + 2 ^ 4 * s.result.code.toNat + 2 ^ 8 * s.windowFull.toNat + 2 ^ 9 * s.overrun.toNat) /
        2 ^ lo % 2 ^ width := by
  rw [BitVec.extractLsb'_toNat, statusWord_toNat, Nat.shiftRight_eq_div_pow]

theorem result_code_le (r : Result) : r.code.toNat ≤ 4 := by
  cases r <;> decide

theorem statusWord_result (s : State) : s.statusWord.extractLsb' 4 4 = s.result.code := by
  have hbusy := s.busy.toNat_le
  apply BitVec.eq_of_toNat_eq
  rw [statusWord_field]
  omega

theorem statusWord_reserved (s : State) :
    s.statusWord.extractLsb' 1 3 = 0#3 ∧ s.statusWord.extractLsb' 10 22 = 0#22 := by
  have hbusy := s.busy.toNat_le
  have hfull := s.windowFull.toNat_le
  have hoverrun := s.overrun.toNat_le
  have hcode := result_code_le s.result
  constructor <;> apply BitVec.eq_of_toNat_eq <;> rw [statusWord_field, BitVec.toNat_ofNat] <;> omega

theorem statusWord_bit (s : State) (i : Nat) :
    s.statusWord.getLsbD i = true ↔
      (s.busy.toNat + 2 ^ 4 * s.result.code.toNat + 2 ^ 8 * s.windowFull.toNat + 2 ^ 9 * s.overrun.toNat) / 2 ^ i % 2 =
        1 := by
  rw [← BitVec.testBit_toNat, statusWord_toNat, Nat.testBit_eq_decide_div_mod_eq, decide_eq_true_iff]

theorem statusWord_flags (s : State) :
    s.statusWord.getLsbD 0 = s.busy ∧ s.statusWord.getLsbD 8 = s.windowFull ∧ s.statusWord.getLsbD 9 = s.overrun := by
  have hbusy := s.busy.toNat_le
  have hfull := s.windowFull.toNat_le
  have hoverrun := s.overrun.toNat_le
  have hcode := result_code_le s.result
  refine ⟨Bool.eq_iff_iff.mpr ?_, Bool.eq_iff_iff.mpr ?_, Bool.eq_iff_iff.mpr ?_⟩ <;>
    rw [statusWord_bit, ← Bool.toNat_eq_one] <;> omega

/-- Settles O9: STATUS read field by field; RESULT is the code of the result. -/
theorem statusReadHasTheRulesLayout : Obligations.StatusReadHasTheRulesLayout := by
  intro s
  obtain ⟨hbusy, hfull, hoverrun⟩ := statusWord_flags s
  obtain ⟨hlow, hhigh⟩ := statusWord_reserved s
  have hcode {r : Result} (h : s.result = r) : s.statusWord.extractLsb' 4 4 = r.code := h ▸ statusWord_result s
  refine ⟨s.statusWord, rfl, ?busy, hlow, hcode, hcode, hcode, hcode, hcode, ?range, hfull, hoverrun, hhigh⟩
  case busy => rw [hbusy, Bool.eq_iff_iff, busy_iff, decide_eq_true_iff]
  case range => rw [statusWord_result]; exact result_code_le s.result

/-! ### Array reads -/

theorem obufUnspecified_iff (s : State) :
    s.obufUnspecified = true ↔ s.phase ≠ .idle ∧ (s.op = .encode ∨ s.op = .emit) := by
  simp [State.obufUnspecified, busy_iff]

theorem msgUnspecified_iff (s : State) :
    s.msgUnspecified = true ↔ s.phase ≠ .idle ∧ (s.op = .decode ∨ s.op = .receive) := by
  simp [State.msgUnspecified, busy_iff]

theorem ibufUnspecified_iff (s : State) : s.ibufUnspecified = true ↔ s.phase ≠ .idle ∧ s.op = .receive := by
  simp [State.ibufUnspecified, busy_iff]

/-- A read past its array answers 0, whatever the phase (R65). -/
theorem exec_rdObuf_of_le {i : BitVec 10} (s : State) (h : 257 ≤ i.toNat) :
    exec (.rdObuf i) s = .next (s.respond 0#32) :=
  if_neg (Nat.not_lt.mpr h)

theorem exec_rdMsg_of_le {i : BitVec 15} {s : State} (h : s.cfg.msgSlots ≤ i.toNat) :
    exec (.rdMsg i) s = .next (s.respond 0#32) :=
  if_neg (Nat.not_lt.mpr h)

theorem exec_rdIbuf_of_le {i : BitVec 16} {s : State} (h : s.cfg.ibufBytes ≤ i.toNat) :
    exec (.rdIbuf i) s = .next (s.respond 0#32) :=
  if_neg (Nat.not_lt.mpr h)

theorem exec_rdObuf_of_lt {i : BitVec 10} (s : State) (h : i.toNat ≤ 256) :
    exec (.rdObuf i) s =
      if s.obufUnspecified then .next s.respondFree else .next (s.respond (byteWord (s.obufAt i.toNat))) :=
  if_pos (Nat.lt_succ_of_le h)

theorem exec_rdMsg_of_lt {i : BitVec 15} {s : State} (h : i.toNat < s.cfg.msgSlots) :
    exec (.rdMsg i) s =
      if s.msgUnspecified then .next s.respondFree else .next (s.respond (s.msgAt i.toNat)) :=
  if_pos h

theorem exec_rdIbuf_of_lt {i : BitVec 16} {s : State} (h : i.toNat < s.cfg.ibufBytes) :
    exec (.rdIbuf i) s =
      if s.ibufUnspecified then .next s.respondFree else .next (s.respond (byteWord (s.ibufAt i.toNat))) :=
  if_pos h

/-- Settles O11: past the array, specified and unspecified are the three branches of the row. -/
theorem obufReadIsStoredByteOrFreeOrZero : Obligations.ObufReadIsStoredByteOrFreeOrZero := by
  refine fun i s => ⟨exec_rdObuf_of_le s, fun hi hspec => ?stored, fun hi hrun => ?free⟩
  case stored => rw [exec_rdObuf_of_lt s hi, if_neg (by rw [obufUnspecified_iff]; tauto)]; rfl
  case free => rw [exec_rdObuf_of_lt s hi, if_pos ((obufUnspecified_iff s).mpr hrun)]; rfl

/-- Settles O12: past the array, specified and unspecified are the three branches of the row. -/
theorem msgReadIsStoredWordOrFreeOrZero : Obligations.MsgReadIsStoredWordOrFreeOrZero := by
  refine fun i s => ⟨exec_rdMsg_of_le, fun hi hspec => ?stored, fun hi hrun => ?free⟩
  case stored => rw [exec_rdMsg_of_lt hi, if_neg (by rw [msgUnspecified_iff]; tauto)]; rfl
  case free => rw [exec_rdMsg_of_lt hi, if_pos ((msgUnspecified_iff s).mpr hrun)]; rfl

/-- Settles O13: past the array, specified and unspecified are the three branches of the row. -/
theorem ibufReadIsStoredByteOrFreeOrZero : Obligations.IbufReadIsStoredByteOrFreeOrZero := by
  refine fun i s => ⟨exec_rdIbuf_of_le, fun hi hspec => ?stored, fun hi hrun => ?free⟩
  case stored => rw [exec_rdIbuf_of_lt hi, if_neg (by rw [ibufUnspecified_iff]; tauto)]; rfl
  case free => rw [exec_rdIbuf_of_lt hi, if_pos ((ibufUnspecified_iff s).mpr hrun)]; rfl

/-! ### Writes in IDLE -/

theorem halfOf_eq_setWidth (v : Word) : halfOf v = v.setWidth 16 :=
  BitVec.eq_of_toNat_eq (by rw [halfOf_toNat, BitVec.toNat_setWidth])

theorem byteOf_eq_setWidth (v : Word) : byteOf v = v.setWidth 8 :=
  BitVec.eq_of_toNat_eq (by rw [byteOf, BitVec.extractLsb'_toNat, Nat.shiftRight_zero, BitVec.toNat_setWidth])

/-- Settles O15: the gate is open in IDLE, and the effect takes the datum's low half. -/
theorem latencyAndTimeoutWritesTakeTheLowHalf : Obligations.LatencyAndTimeoutWritesTakeTheLowHalf := by
  intro s v hidle
  constructor
  · rw [exec_wrLatencyMs, whenIdle_idle s _ hidle, halfOf_eq_setWidth]
  · rw [exec_wrTimeoutMs, whenIdle_idle s _ hidle, halfOf_eq_setWidth]

/-- Settles O17: the gate is open in IDLE, and a read after the write finds the byte at its own index only. -/
theorem ibufWriteStoresOneByte : Obligations.IbufWriteStoresOneByte := by
  intro s i v hidle hi
  refine ⟨{ s with ibuf := s.ibuf.write i.toNat (byteOf v) }, ?_, rfl, ?_, fun j hj => ?_⟩
  · rw [exec_wrIbuf_of_lt v hi, whenIdle_idle s _ hidle]
  · rw [ibufAt_write, if_pos rfl, byteOf_eq_setWidth]
  · rw [ibufAt_write, if_neg hj]

theorem clearOverrun_of_clear {v : Word} (s : State) (h : v.getLsbD 9 = false) : s.clearOverrun v = s := by
  rw [State.clearOverrun, h, Bool.not_false, Bool.and_true]

/-- Settles O18: the row is the W1C of bit 9 and has no gate. -/
theorem statusWriteOnlyClearsOverrun : Obligations.StatusWriteOnlyClearsOverrun := by
  refine fun s v => ⟨fun hset => ?set, fun hclear => ?clear⟩
  case set => rw [exec_wrStatus, clearOverrun_of_set s hset]
  case clear => rw [exec_wrStatus, clearOverrun_of_clear s hclear]

/-! ### Offsets that read 0 and ignore writes -/

theorem exec_rdReserved (off : BitVec 19) (s : State) : exec (.rdReserved off) s = .next (s.respond 0#32) := rfl

/-- The registers lie below 0x30 on multiples of 4, with a gap at 0x0C (R61). -/
theorem register_offset_in_range :
    ∀ off ∈ [0x00000#19, 0x00004#19, 0x00008#19, 0x00010#19, 0x00014#19, 0x00018#19, 0x0001C#19, 0x00020#19,
      0x00024#19, 0x00028#19, 0x0002C#19], off.toNat % 4 = 0 ∧ off.toNat < 0x30 ∧ off.toNat ≠ 0x0C := by
  simp

theorem writable_register_is_register {off : BitVec 19}
    (h : off ∈ [0x00010#19, 0x00014#19, 0x00018#19, 0x0001C#19, 0x00020#19]) :
    off ∈ [0x00000#19, 0x00004#19, 0x00008#19, 0x00010#19, 0x00014#19, 0x00018#19, 0x0001C#19, 0x00020#19,
      0x00024#19, 0x00028#19, 0x0002C#19] := by
  simp only [List.mem_cons, List.not_mem_nil, or_false] at h ⊢
  tauto

/-- The offsets that hold nothing: reserved, misaligned, or past an array (R65, R66). -/
def holdsNothing (p : Params) (off : BitVec 19) : Prop :=
  off.toNat % 4 ≠ 0 ∨ off.toNat = 0x0C ∨ (0x30 ≤ off.toNat ∧ off.toNat < 0x1000) ∨
    (0x01404 ≤ off.toNat ∧ off.toNat < 0x20000) ∨
    (0x20000 + 4 * p.msgSlots ≤ off.toNat ∧ off.toNat < 0x40000) ∨ 0x40000 + 4 * p.ibufBytes ≤ off.toNat

theorem not_register_of_holdsNothing {p : Params} {off : BitVec 19} (h : holdsNothing p off) :
    off ∉ [0x00000#19, 0x00004#19, 0x00008#19, 0x00010#19, 0x00014#19, 0x00018#19, 0x0001C#19, 0x00020#19,
      0x00024#19, 0x00028#19, 0x0002C#19] := by
  intro hreg
  obtain ⟨h4, hlt, hgap⟩ := register_offset_in_range off hreg
  unfold holdsNothing at h
  omega

/-- A read there decodes to RD_RESERVED, or to an array row whose index is past the array. -/
theorem exec_decodeRead_of_holdsNothing {s : State} {off : BitVec 19} (h : holdsNothing s.cfg off) :
    exec (decodeRead off) s = .next (s.respond 0#32) := by
  cases hrow : offHasReadRow off with
  | false => rw [decodeRead_of_no_row hrow, exec_rdReserved]
  | true =>
    have hlt := off.isLt
    obtain hreg | ⟨h4, hwindow⟩ := (offHasReadRow_iff off).mp hrow
    · exact absurd hreg (not_register_of_holdsNothing h)
    unfold holdsNothing at h
    obtain ⟨hlo, hhi⟩ | ⟨hlo, hhi⟩ | hlo := hwindow
    · rw [decodeRead_of_inObuf h4 hlo hhi, exec_rdObuf_of_le]
      rw [indexOf_toNat]
      omega
    · rw [decodeRead_of_inMsg h4 hlo hhi, exec_rdMsg_of_le]
      rw [indexOf_toNat]
      omega
    · rw [decodeRead_of_inIbuf h4 hlo, exec_rdIbuf_of_le]
      rw [indexOf_toNat]
      omega

/-- A write there decodes to WR_IGNORED, or to the IBUF row with an index past the array. -/
theorem exec_decodeWrite_of_holdsNothing {s : State} {off : BitVec 19} (v : Word) (h : holdsNothing s.cfg off) :
    exec (decodeWrite off v) s = .next s := by
  cases hrow : offHasWriteRow off with
  | false => rw [decodeWrite_of_no_row v hrow, exec_wrIgnored]
  | true =>
    have hlt := off.isLt
    obtain hreg | ⟨h4, hlo⟩ := (offHasWriteRow_iff off).mp hrow
    · exact absurd (writable_register_is_register hreg) (not_register_of_holdsNothing h)
    unfold holdsNothing at h
    rw [decodeWrite_of_inIbuf v h4 hlo, exec_wrIbuf_of_le]
    rw [indexOf_toNat]
    omega

/-- Settles O14: the two rows for other offsets by their arms, and the offsets that hold nothing by what they decode to. -/
theorem reservedAndMisalignedOffsetsReadZeroIgnoreWrites : Obligations.ReservedAndMisalignedOffsetsReadZeroIgnoreWrites :=
  ⟨fun s off v => ⟨exec_rdReserved off s, exec_wrIgnored off v s⟩,
    fun s off v h =>
      have hnothing : holdsNothing s.cfg off := h.imp_right (Or.imp_left (congrArg BitVec.toNat))
      ⟨_, _, decode_read_base_add s.cfg.base off, exec_decodeRead_of_holdsNothing hnothing,
        decode_write_base_add s.cfg.base off v, exec_decodeWrite_of_holdsNothing v hnothing⟩⟩

/-! ### Commands -/

/-- In IDLE a gated access has its effect. -/
theorem exec_of_gated_idle {a : Instr} {s : State} {effect : State → State} (hidle : s.phase = .idle)
    (hgated : exec a s = .next (s.whenIdle effect)) : exec a s = .next (effect s) := by
  rw [hgated, whenIdle_idle s effect hidle]

/-- A write to CMD of a word with the given opcode passes the gate with that opcode's effect, whatever the ignored bits. -/
theorem exec_wrCmd_cmdWord (g : BitVec 28) (opcode : BitVec 4) (s : State) :
    exec (.wrCmd (cmdWord g opcode)) s = .next (s.whenIdle (State.startOpcode opcode)) := by
  rw [exec_wrCmd, opcodeOf_cmdWord]

theorem startReceive_of_present {s : State} (hrx : s.cfg.rxPresent = true) :
    s.startReceive =
      { s with phase := .arm, op := .receive, elapsed := 0#17, idle := 0#17, wlen := 0#16, full := false } := by
  rw [State.startReceive, if_pos hrx]

/-- Settles O21: the gate is open in IDLE, and the row and the written word have one effect. -/
theorem acceptedCommandsEnterTheirFirstPhase : Obligations.AcceptedCommandsEnterTheirFirstPhase := by
  intro s g hidle
  have accepted {a : Instr} {effect : State → State} := exec_of_gated_idle (a := a) (effect := effect) hidle
  simp only [List.forall_mem_cons]
  refine ⟨⟨accepted (exec_encode g s), accepted (exec_wrCmd_cmdWord g 1#4 s), List.forall_mem_nil _⟩,
    ⟨accepted (exec_emit g s), accepted (exec_wrCmd_cmdWord g 2#4 s), List.forall_mem_nil _⟩,
    ⟨accepted (exec_decode g s), accepted (exec_wrCmd_cmdWord g 3#4 s), List.forall_mem_nil _⟩,
    fun hrx => ?receive⟩
  case receive =>
    rw [← startReceive_of_present hrx]
    exact ⟨accepted (exec_receive g s), accepted (exec_wrCmd_cmdWord g 4#4 s), List.forall_mem_nil _⟩

/-- The CMD row of a word passes the gate with the effect of the word's opcode (R97, R230). -/
theorem exec_decodeCmd (v : Word) (s : State) :
    exec (decodeCmd v) s = .next (s.whenIdle (State.startOpcode (opcodeOf v))) := by
  unfold decodeCmd
  dsimp only
  split_ifs with h0 h1 h2 h3 h4 h5 h6 h7
  case neg =>
    have hunassigned : State.startOpcode (opcodeOf v) = State.completeIllegal :=
      funext fun t => startOpcode_of_unassigned t (.inr (by bv_omega))
    rw [hunassigned, exec_rsvd8F]
  · rw [h0, exec_rsvd0]; rfl
  · rw [h1, exec_encode]; rfl
  · rw [h2, exec_emit]; rfl
  · rw [h3, exec_decode]; rfl
  · rw [h4, exec_receive]; rfl
  · rw [h5, exec_rsvd5]; rfl
  · rw [h6, exec_rsvd6]; rfl
  · rw [h7, exec_rsvd7]; rfl

/-- Settles O23: both are the gated effect of the word's opcode. -/
theorem cmdWriteIsTheRowOfItsWord : Obligations.CmdWriteIsTheRowOfItsWord :=
  fun v s => (exec_wrCmd v s).trans (exec_decodeCmd v s).symm

/-- Settles O24: the effect of a CMD row depends on the word's opcode alone. -/
theorem cmdWordsHighBitsAreIgnored : Obligations.CmdWordsHighBitsAreIgnored := by
  intro v w s h
  rw [exec_decodeCmd, exec_decodeCmd, opcodeOf, opcodeOf, h]

/-! ### Accesses in a reset cycle -/

/-- The rows that write are ignored in a reset cycle (R303). -/
theorem accessInReset_of_write {i : Instr} (s : State) (v : Word) (g : BitVec 28) (low : BitVec 3) (j : BitVec 16)
    (off : BitVec 19)
    (h : i ∈ [Instr.encode g, .emit g, .decode g, .receive g, .rsvd0 g, .rsvd5 g, .rsvd6 g, .rsvd7 g, .rsvd8F low g,
      .wrCmd v, .wrStatus v, .wrLatencyMs v, .wrTimeoutMs v, .wrInLen v, .wrIbuf j v, .wrIgnored off v]) :
    accessInReset i s = s := by
  revert i
  simp only [List.forall_mem_cons]
  exact ⟨rfl, rfl, rfl, rfl, rfl, rfl, rfl, rfl, rfl, rfl, rfl, rfl, rfl, rfl, rfl, rfl, List.forall_mem_nil _⟩

/-- The registers read their reset values in a reset cycle, the constants their own (R303). -/
theorem accessInReset_of_register {s : State} (hlegal : s.cfg.legal = true) :
    ∀ p ∈ [(Instr.rdId, 0x46430007#32), (.rdCaps, if s.cfg.rxPresent then 1#32 else 0#32),
        (.rdIbufSize, BitVec.ofNat 32 s.cfg.ibufBytes), (.rdCmd, 0#32), (.rdStatus, 0#32), (.rdLatencyMs, 50#32),
        (.rdTimeoutMs, 10#32), (.rdInLen, 0#32), (.rdOutLen, 0#32), (.rdMsgCount, 0#32), (.rdConsumed, 0#32)],
      accessInReset p.1 s.applyReset = s.applyReset.respond p.2 := by
  have hcaps : s.applyReset.capsWord = if s.cfg.rxPresent then 1#32 else 0#32 := capsWord_eq s.applyReset
  have hsize : s.applyReset.ibufSizeWord = BitVec.ofNat 32 s.cfg.ibufBytes := ibufSizeWord_eq (s := s.applyReset) hlegal
  have hstatus : s.applyReset.statusWord = 0#32 := resetStateHoldsTheResetValues.1
  simp only [List.forall_mem_cons, ← hcaps, ← hsize]
  exact ⟨rfl, rfl, rfl, rfl, congrArg s.applyReset.respond hstatus, rfl, rfl, rfl, rfl, rfl, rfl, List.forall_mem_nil _⟩

/-- An array read in a reset cycle, inside the array and past it (R303, R65). -/
theorem readArrayInReset_of_inside {inside : Bool} (s : State) (h : inside = true) :
    s.readArrayInReset inside = s.respondFree := by
  rw [State.readArrayInReset, if_pos h]

theorem readArrayInReset_of_past {inside : Bool} (s : State) (h : inside = false) :
    s.readArrayInReset inside = s.respond 0#32 := by
  rw [State.readArrayInReset, h, if_neg Bool.false_ne_true]

theorem accessInReset_of_array {i : Instr} {s : State}
    (h : (∃ j, i = .rdObuf j ∧ j.toNat ≤ 256) ∨ (∃ j, i = .rdMsg j ∧ j.toNat < s.cfg.ibufBytes / 3) ∨
      (∃ j, i = .rdIbuf j ∧ j.toNat < s.cfg.ibufBytes)) :
    accessInReset i s = s.respondFree := by
  obtain ⟨j, rfl, hj⟩ | ⟨j, rfl, hj⟩ | ⟨j, rfl, hj⟩ := h
  · exact readArrayInReset_of_inside s (decide_eq_true (Nat.lt_succ_of_le hj))
  · exact readArrayInReset_of_inside s (decide_eq_true hj)
  · exact readArrayInReset_of_inside s (decide_eq_true hj)

theorem accessInReset_of_nothing {i : Instr} {s : State}
    (h : (∃ off, i = .rdReserved off) ∨ (∃ j, i = .rdObuf j ∧ 257 ≤ j.toNat) ∨
      (∃ j, i = .rdMsg j ∧ s.cfg.ibufBytes / 3 ≤ j.toNat) ∨ (∃ j, i = .rdIbuf j ∧ s.cfg.ibufBytes ≤ j.toNat)) :
    accessInReset i s = s.respond 0#32 := by
  obtain ⟨off, rfl⟩ | ⟨j, rfl, hj⟩ | ⟨j, rfl, hj⟩ | ⟨j, rfl, hj⟩ := h
  · rfl
  · exact readArrayInReset_of_past s (decide_eq_false (Nat.not_lt.mpr hj))
  · exact readArrayInReset_of_past s (decide_eq_false (Nat.not_lt.mpr hj))
  · exact readArrayInReset_of_past s (decide_eq_false (Nat.not_lt.mpr hj))

/-- Settles O56: the reset comes first, and the access is answered from the state after it. -/
theorem hostAccessInAResetCycle : Obligations.HostAccessInAResetCycle := by
  intro s r i hlegal hrst hhost hdecode after
  have hafter : after = (s.beginCycle s.nextCycle).applyReset := rfl
  have hstep : step s = .next (accessInReset i after) := step_of_reset_access hlegal hrst hhost hdecode
  refine ⟨fun v g low j off hi => ?writes, fun p hp hi => ?registers, fun hi => ?arrays, fun hi => ?nothing⟩
  case writes => rw [hstep, accessInReset_of_write after v g low j off hi]
  case registers =>
    have hlegal' : (s.beginCycle s.nextCycle).cfg.legal = true := hlegal
    rw [hstep, hi, hafter, accessInReset_of_register hlegal' p hp]
    rfl
  case arrays => rw [hstep, accessInReset_of_array (by exact hi)]; rfl
  case nothing => rw [hstep, accessInReset_of_nothing (by exact hi)]; rfl

end Sys2Proof.Machine
end

section
/-!
PROOFS. The emitter (spec 40_emitter.md R120 to R132): `encode` determines its payload, what each of the phases ENC, FLUSH
and TX does in a cycle, and the transmit stream during TX.
-/

namespace Sys2Proof.Machine

/-! ### `encode` determines its payload -/

/-- A payload that encodes is the unframed [0A], or it is framed (R120, R124). -/
theorem frame_cases_of_encodePayload {p f : List Byte} (h : encodePayload p = .frame f) :
    (p = [Config.term] ∧ f = [Config.term]) ∨ (p ≠ [Config.term] ∧ f = frameOf p) := by
  obtain hlarge | hlen := Nat.lt_or_ge 254 p.length
  · rw [encodePayload_of_too_large hlarge] at h
    cases h
  · by_cases hterm : p = [Config.term]
    · rw [hterm, encodePayload_singleton_term] at h
      exact .inl ⟨hterm, (Encoded.frame.inj h).symm⟩
    · exact .inr ⟨hterm, eq_frameOf_of_encodePayload hlen hterm h⟩

theorem frameOf_injective {p p' : List Byte} (h : frameOf p = frameOf p') : p = p' := by
  have hlen : p.length = p'.length := by
    have := congrArg List.length h
    rw [frameOf_length, frameOf_length] at this
    omega
  rw [← slice_frameOf_append p [], ← slice_frameOf_append p' [], h, hlen]

/-- A framed output has three bytes around its payload, so it is longer than the unframed one (R132(c)). -/
theorem frameOf_ne_term (p : List Byte) : frameOf p ≠ [Config.term] := by
  intro h
  have := congrArg List.length h
  rw [frameOf_length] at this
  simp at this

/-- Settles O26: the two kinds of output differ in length, and each determines its payload. -/
theorem encodeIsInjective : Obligations.EncodeIsInjective := by
  intro p p' f h h'
  obtain ⟨hp, hf⟩ | ⟨hp, hf⟩ := frame_cases_of_encodePayload h <;>
    obtain ⟨hp', hf'⟩ | ⟨hp', hf'⟩ := frame_cases_of_encodePayload h'
  · exact ⟨hp.trans hp'.symm, fun hne => absurd hp hne⟩
  · exact absurd (hf'.symm.trans hf) (frameOf_ne_term p')
  · exact absurd (hf.symm.trans hf') (frameOf_ne_term p)
  · refine ⟨frameOf_injective (hf.symm.trans hf'), fun _ => ?_⟩
    rw [hf, frameOf_length]
    omega

/-! ### ENC -/

@[simp] theorem ibufPrefix_length (s : State) (n : Nat) : (s.ibufPrefix n).length = n := by
  simp [State.ibufPrefix]

/-- The controller's step of an ENC cycle with work (R121, log 5). -/
theorem controllerStep_enc_of_work {c : CycleIn} {s : State} (hphase : s.phase = .enc) (hwork : c.work ≠ 0) :
    controllerStep c s = encStep s := by
  rw [controllerStep_enc c s hphase, if_neg hwork]

theorem encStep_of_too_large {s : State} (h : 255 ≤ s.inLen.toNat) :
    encStep s = { s with outLen := 0#9 }.complete .payloadTooLarge false := by
  rw [encStep, encodePayload_of_too_large (by rwa [ibufPrefix_length])]

/-- Settles O27: 255 bytes do not encode, and that completes both operations alike. -/
theorem tooLargePayloadCompletesWithoutIo : Obligations.TooLargePayloadCompletesWithoutIo := by
  intro c s hphase hwork hlarge
  rw [controllerStep_enc_of_work hphase hwork, encStep_of_too_large hlarge]
  rfl

theorem exists_frame_of_inLen_le {s : State} (h : s.inLen.toNat ≤ 254) :
    ∃ f, encodePayload (s.ibufPrefix s.inLen.toNat) = .frame f := by
  obtain ⟨hlarge, -⟩ | ⟨-, f, hf, -⟩ := encodePayload_cases (s.ibufPrefix s.inLen.toNat)
  · rw [ibufPrefix_length] at hlarge
    omega
  · exact ⟨f, hf⟩

/-- OBUF's first entries after a frame was written there are the frame (R123). -/
theorem obufPrefix_writeList (s : State) (f : List Byte) :
    State.obufPrefix { s with obuf := s.obuf.writeList 0 f } f.length = f := by
  apply List.ext_getElem
  · simp [State.obufPrefix]
  · intro j hj hj'
    simp only [State.obufPrefix, List.getElem_map, List.getElem_range, obufAt_writeList, dif_pos hj']

theorem obufAt_writeList_of_le (s : State) {f : List Byte} {j : Nat} (h : f.length ≤ j) :
    State.obufAt { s with obuf := s.obuf.writeList 0 f } j = s.obufAt j := by
  rw [obufAt_writeList, dif_neg (Nat.not_lt.mpr h)]

theorem encStep_of_emit {s : State} {f : List Byte} (hf : encodePayload (s.ibufPrefix s.inLen.toNat) = .frame f)
    (hop : s.op = .emit) :
    encStep s = { s with obuf := s.obuf.writeList 0 f, flen := BitVec.ofNat 9 f.length, phase := .flush } := by
  simp [encStep, hf, hop]

theorem encStep_of_encode {s : State} {f : List Byte} (hf : encodePayload (s.ibufPrefix s.inLen.toNat) = .frame f)
    (hop : s.op = .encode) :
    encStep s = { s with
      obuf := s.obuf.writeList 0 f, flen := BitVec.ofNat 9 f.length
      outLen := BitVec.ofNat 9 f.length }.complete .ok false := by
  simp [encStep, hf, hop]

/-- Settles O28: the frame is written from index 0 on, and OUT_LEN can hold its length. -/
theorem encodeLeavesTheFrameInObuf : Obligations.EncodeLeavesTheFrameInObuf := by
  intro c s hphase hop hwork hlen
  obtain ⟨f, hf⟩ := exists_frame_of_inLen_le hlen
  obtain ⟨-, hle⟩ := frame_length_of_encodePayload hf
  refine ⟨_, f, hf, (controllerStep_enc_of_work hphase hwork).trans (encStep_of_encode hf hop), rfl, ?_,
    fun j hj => obufAt_writeList_of_le s hj⟩
  rw [complete_outLen, flen_toNat hle]
  exact obufPrefix_writeList s f

/-- Settles O29: the frame is written from index 0 on. -/
theorem emitGoesFromEncToFlush : Obligations.EmitGoesFromEncToFlush := by
  intro c s hphase hop hwork hlen
  obtain ⟨f, hf⟩ := exists_frame_of_inLen_le hlen
  exact ⟨_, f, hf, (controllerStep_enc_of_work hphase hwork).trans (encStep_of_emit hf hop), rfl,
    obufPrefix_writeList s f, fun j hj => obufAt_writeList_of_le s hj⟩

/-! ### FLUSH and TX -/

/-- Settles O30: the cycle's arrivals are in the FIFO before the flush empties it. -/
theorem flushLastsOneCycleAndDiscardsAllInput : Obligations.FlushLastsOneCycleAndDiscardsAllInput := by
  intro s hlegal hphase hcycle
  have hbusy : s.phase ≠ .idle := by simp [hphase]
  rw [step_of_unattended hlegal hcycle, afterAccess, if_neg hbusy, controllerStep_flush _ (s.beginCycle _) hphase]
  rfl

/-- Settles O31: the three clauses are the three branches of a TX cycle. -/
theorem txOffersObufAtKAndTransfersWhenReady : Obligations.TxOffersObufAtKAndTransfersWhenReady := by
  intro c s hphase offered
  rw [controllerStep_tx c s hphase]
  refine ⟨fun hready => ?stall, fun hready hmore => ?next, fun hready hlast => ?last⟩
  case stall => rw [txStep, hready]; rfl
  case next => rw [txStep, hready]; exact if_neg hmore
  case last => rw [txStep, hready]; exact if_pos hlast

/-- The bytes still to be sent are the next one and those after it (R128). -/
theorem toSend_eq_cons {s : State} (hphase : s.phase = .tx) (hlt : s.k.toNat < s.flen.toNat) :
    s.toSend = s.obufAt s.k.toNat :: (s.obufPrefix s.flen.toNat).drop (s.k.toNat + 1) := by
  have hlen : s.k.toNat < (s.obufPrefix s.flen.toNat).length := by simpa [State.obufPrefix] using hlt
  rw [State.toSend, if_pos hphase, List.drop_eq_getElem_cons hlen]
  simp [State.obufPrefix]

theorem toSend_of_tx {s : State} (hphase : s.phase = .tx) :
    s.toSend = (s.obufPrefix s.flen.toNat).drop s.k.toNat := by
  rw [State.toSend, if_pos hphase]

theorem toSend_of_not_tx {s : State} (hphase : s.phase ≠ .tx) : s.toSend = [] := by
  rw [State.toSend, if_neg hphase]

/-- A TX cycle moves at most the next byte from what is still to be sent to what has been sent (R128). -/
theorem txStep_wire_append_toSend (ready : Bool) {s : State} (hphase : s.phase = .tx) (hlt : s.k.toNat < s.flen.toNat) :
    (txStep ready s).wire ++ (txStep ready s).toSend = s.wire ++ s.toSend ∧
      ((txStep ready s).phase = .tx → (txStep ready s).k.toNat < (txStep ready s).flen.toNat) := by
  obtain ⟨-, h⟩ | ⟨-, hmore, h⟩ | ⟨-, hlast, h⟩ := txStep_cases ready s <;> rw [h]
  · exact ⟨rfl, fun _ => hlt⟩
  · have hk := k_add_one_toNat hlt
    constructor
    · rw [toSend_of_tx (by exact hphase), toSend_eq_cons hphase hlt, hk, List.append_assoc]
      rfl
    · intro _
      rw [hk]
      exact lt_of_le_of_ne hlt hmore
  · constructor
    · rw [toSend_of_not_tx (by simp), toSend_eq_cons hphase hlt, List.drop_eq_nil_of_le (by simp [State.obufPrefix, hlast])]
      simp
    · intro hidle
      cases hidle

/-- Settles O32: a TX cycle moves at most the next byte. -/
theorem txSendsEachByteExactlyOnceInOrder : Obligations.TxSendsEachByteExactlyOnceInOrder := by
  intro c s hphase hlt
  rw [controllerStep_tx c s hphase]
  exact txStep_wire_append_toSend c.txReady hphase hlt

end Sys2Proof.Machine
end

section
/-!
PROOFS. Runs (spec 10_state.md R31, 70_reset_and_hazards.md R320): a cycle without reset and host access is the controller's
step, so a run of such cycles is a fold over them; the cycle of an accepted command before it; and from these EMIT's run.
-/

namespace Sys2Proof.Machine

/-! ### A run, step by step -/

theorem runsTo_zero (s : State) : runsTo 0 s s := rfl

theorem run_succ_of_step (M : Host.Core) {s u : M.State} (k : Nat) (hstep : M.step s = .next u) :
    M.run (k + 1) s = M.run k u := by
  rw [Host.Core.run, hstep]

theorem runsTo_succ {k : Nat} {s u t : State} (hstep : step s = .next u) (hrun : runsTo k u t) : runsTo (k + 1) s t :=
  (run_succ_of_step Sys2Proof.core k hstep).trans hrun

/-- What the cycles `cs` make of `s` when only the controller and the transport act in them. -/
def State.afterCycles (s : State) (cs : List CycleIn) : State :=
  cs.foldl (fun t c => controllerStep c (t.beginCycle c)) s

@[simp] theorem afterCycles_nil (s : State) : s.afterCycles [] = s := rfl

@[simp] theorem afterCycles_cons (s : State) (c : CycleIn) (cs : List CycleIn) :
    s.afterCycles (c :: cs) = (controllerStep c (s.beginCycle c)).afterCycles cs := rfl

theorem afterCycles_append (s : State) (cs ds : List CycleIn) :
    s.afterCycles (cs ++ ds) = (s.afterCycles cs).afterCycles ds := List.foldl_append

theorem nextCycle_of_sched {s : State} {c : CycleIn} {cs : List CycleIn} (h : s.sched = c :: cs) : s.nextCycle = c := by
  rw [State.nextCycle, h, List.headD_cons]

/-- In IDLE the controller does nothing, so its part of an unattended cycle is its step in every phase. -/
theorem afterAccess_phase (c : CycleIn) (s : State) : afterAccess c s.phase s = controllerStep c s := by
  unfold afterAccess
  split_ifs with hidle
  · rw [controllerStep_idle c s hidle]
  · rfl

theorem step_of_unattended_sched {s : State} {c : CycleIn} {cs : List CycleIn} (hlegal : s.cfg.legal = true)
    (hsched : s.sched = c :: cs) (hc : c.unattended) : step s = .next (controllerStep c (s.beginCycle c)) := by
  have hnext := nextCycle_of_sched hsched
  rw [step_of_unattended hlegal (by rwa [hnext]), hnext, ← afterAccess_phase, beginCycle_phase]

theorem controllerStep_sched (c : CycleIn) (s : State) : (controllerStep c s).sched = s.sched := by
  have h := controllerStep_hostSide c s
  simp only [State.hostSide, State.mk.injEq] at h
  tauto

/-- A run of unattended cycles never stops, and is the fold over them. -/
theorem runsTo_afterCycles {s : State} {cs : List CycleIn} (hlegal : s.cfg.legal = true) (hsched : s.sched = cs)
    (hcs : ∀ c ∈ cs, c.unattended) : runsTo cs.length s (s.afterCycles cs) := by
  induction cs generalizing s with
  | nil => exact runsTo_zero s
  | cons c cs ih =>
    obtain ⟨hc, hrest⟩ := List.forall_mem_cons.mp hcs
    refine runsTo_succ (step_of_unattended_sched hlegal hsched hc) (ih ?_ ?_ hrest)
    · rw [(controllerStep_keeps c _).1]
      exact hlegal
    · rw [controllerStep_sched, beginCycle_sched, hsched, List.tail_cons]

/-! ### The cycle of a command -/

/-- The cycle of the host-program line `cmd OP`, with any ignored bits (R97, R103). -/
def commandCycle (g : BitVec 28) (opcode : BitVec 4) : CycleIn :=
  { CycleIn.quiet with host := some (.cmd (cmdWord g opcode)) }

theorem startOpcode_keeps (opcode : BitVec 4) (s : State) :
    (s.startOpcode opcode).cfg = s.cfg ∧ (s.startOpcode opcode).sched = s.sched := by
  obtain h | h | h | h | h := startOpcode_cases opcode s <;> rw [h]
  case inr.inr.inr.inl => obtain ⟨-, h⟩ | ⟨-, h⟩ := startReceive_cases s <;> rw [h] <;> exact ⟨rfl, rfl⟩
  all_goals exact ⟨rfl, rfl⟩

/-- In IDLE the cycle of a command is the opcode's effect: the controller starts in the next cycle (R71, R230). -/
theorem step_of_command {s : State} {g : BitVec 28} {opcode : BitVec 4} {cs : List CycleIn}
    (hlegal : s.cfg.legal = true) (hidle : s.phase = .idle) (hsched : s.sched = commandCycle g opcode :: cs) :
    step s = .next ((s.beginCycle (commandCycle g opcode)).startOpcode opcode) := by
  have hnext := nextCycle_of_sched hsched
  have hexec : exec (decodeCmd (cmdWord g opcode)) (s.beginCycle s.nextCycle) =
      .next ((s.beginCycle s.nextCycle).startOpcode opcode) := by
    rw [exec_decodeCmd, opcodeOf_cmdWord, whenIdle_idle _ _ (by exact hidle)]
  rw [step_of_access (r := .cmd (cmdWord g opcode)) hlegal (by rw [hnext]; rfl) (by rw [hnext]; rfl) rfl hexec,
    afterAccess, if_pos hidle, hnext]

/-- A command accepted in IDLE and the unattended cycles after it. -/
theorem runsTo_command {s : State} {g : BitVec 28} {opcode : BitVec 4} {cs : List CycleIn}
    (hlegal : s.cfg.legal = true) (hidle : s.phase = .idle) (hsched : s.sched = commandCycle g opcode :: cs)
    (hcs : ∀ c ∈ cs, c.unattended) :
    runsTo (1 + cs.length) s (((s.beginCycle (commandCycle g opcode)).startOpcode opcode).afterCycles cs) := by
  obtain ⟨hcfg, hsched'⟩ := startOpcode_keeps opcode (s.beginCycle (commandCycle g opcode))
  rw [Nat.add_comm]
  refine runsTo_succ (step_of_command hlegal hidle hsched) (runsTo_afterCycles ?_ ?_ hcs)
  · rw [hcfg]
    exact hlegal
  · rw [hsched', beginCycle_sched, hsched, List.tail_cons]

/-! ### Cycles in IDLE -/

/-- The state with everything removed that a cycle's own inputs change: the schedule, the transport's input, the driven
outputs and the answered read. -/
def State.withoutInputs (s : State) : State := { s with sched := [], rxFifo := [], pins := Pins.quiet, rdata := none }

theorem beginCycle_withoutInputs (s : State) (c : CycleIn) : (s.beginCycle c).withoutInputs = s.withoutInputs := rfl

/-- Once an operation has completed, unattended cycles change nothing but their own inputs (R284). -/
theorem afterCycles_of_idle {s : State} (cs : List CycleIn) (hidle : s.phase = .idle) :
    (s.afterCycles cs).withoutInputs = s.withoutInputs := by
  induction cs generalizing s with
  | nil => rfl
  | cons c cs ih =>
    rw [afterCycles_cons, controllerStep_idle c _ (by exact hidle), ih (by exact hidle), beginCycle_withoutInputs]

/-! ### EMIT -/

/-- What EMIT leaves as it is once its frame is in OBUF. -/
def State.untouchedByTx (s : State) :
    Memory Byte × BitVec 16 × Memory Word × BitVec 16 × BitVec 16 × Memory Byte × BitVec 9 × Nat :=
  (s.ibuf, s.inLen, s.msg, s.msgCount, s.consumed, s.obuf, s.flen, s.epoch)

theorem txStep_untouched (ready : Bool) (s : State) : (txStep ready s).untouchedByTx = s.untouchedByTx := by
  obtain ⟨-, h⟩ | ⟨-, -, h⟩ | ⟨-, -, h⟩ := txStep_cases ready s <;> rw [h] <;> rfl

/-- What EMIT's completion leaves of a state `s` in TX: what was still to be sent has been sent (R125). -/
structure EmitDone (s t : State) : Prop where
  phase : t.phase = .idle
  wire : t.wire = s.wire ++ s.toSend
  result : t.result = .ok
  windowFull : t.windowFull = false
  outLen : t.outLen = s.flen
  untouched : t.untouchedByTx = s.untouchedByTx

/-- A cycle that keeps what EMIT keeps, and the stream of what was and will be sent, does not change what its completion leaves. -/
theorem EmitDone.of_cycle {s u t : State} (h : EmitDone u t) (hwire : u.wire ++ u.toSend = s.wire ++ s.toSend)
    (hkept : u.untouchedByTx = s.untouchedByTx) : EmitDone s t where
  phase := h.phase
  wire := h.wire.trans hwire
  result := h.result
  windowFull := h.windowFull
  outLen := by
    simp only [State.untouchedByTx, Prod.mk.injEq] at hkept
    obtain ⟨-, -, -, -, -, -, hflen, -⟩ := hkept
    rw [h.outLen, hflen]
  untouched := h.untouched.trans hkept

/-- Completion, and unattended cycles after it. -/
theorem emitDone_of_idle {s t : State} (hphase : s.phase = .idle) (hresult : s.result = .ok)
    (hfull : s.windowFull = false) (hout : s.outLen = s.flen) (ht : t.withoutInputs = s.withoutInputs) :
    EmitDone s t := by
  simp only [State.withoutInputs, State.mk.injEq] at ht
  constructor <;> simp_all [State.untouchedByTx, State.toSend]

/-- Whatever the transport's stalls, TX completes once it has been ready as often as bytes were left (R128, R129). -/
theorem emitDone_afterCycles_tx {s : State} {cs : List CycleIn} (hphase : s.phase = .tx)
    (hlt : s.k.toNat < s.flen.toNat) (hready : s.flen.toNat - s.k.toNat ≤ (cs.filter CycleIn.txReady).length) :
    EmitDone s (s.afterCycles cs) := by
  induction cs generalizing s with
  | nil =>
    rw [List.filter_nil, List.length_nil] at hready
    omega
  | cons c cs ih =>
    rw [afterCycles_cons, controllerStep_tx c (s.beginCycle c) hphase]
    obtain ⟨hwire, hk⟩ := txStep_wire_append_toSend c.txReady (s := s.beginCycle c) hphase hlt
    refine EmitDone.of_cycle ?_ hwire (txStep_untouched c.txReady (s.beginCycle c))
    obtain ⟨hr, h⟩ | ⟨hr, hmore, h⟩ | ⟨hr, hlast, h⟩ := txStep_cases c.txReady (s.beginCycle c) <;> rw [h] at hk ⊢
    · rw [List.filter_cons_of_neg (by simp [hr])] at hready
      exact ih hphase hlt hready
    · rw [List.filter_cons_of_pos hr, List.length_cons] at hready
      have hnext := k_add_one_toNat hlt
      refine ih hphase (hk hphase) ?_
      dsimp only [beginCycle_k, beginCycle_flen]
      omega
    · exact emitDone_of_idle rfl rfl rfl rfl (afterCycles_of_idle cs rfl)

/-- The entry into TX of an EMIT of the frame `f`: the frame is in OBUF, nothing of it is sent, and the transport's input has
just been flushed (R125, R127). -/
def State.txEntry (s : State) (f : List Byte) : State :=
  { s with
    sched := s.sched.tail.tail, obuf := s.obuf.writeList 0 f, flen := BitVec.ofNat 9 f.length, k := 0#9
    phase := .tx, rxFifo := [], pins := { Pins.quiet with rxFlush := true }, rdata := none }

theorem afterCycles_enc_flush {s : State} {f : List Byte} (hphase : s.phase = .enc) (hop : s.op = .emit)
    (hf : encodePayload (s.ibufPrefix s.inLen.toNat) = .frame f) :
    s.afterCycles [CycleIn.quiet, CycleIn.quiet] = s.txEntry f := by
  rw [afterCycles_cons, controllerStep_enc_of_work (s := s.beginCycle _) hphase (by decide),
    encStep_of_emit (s := s.beginCycle _) hf hop]
  rfl

theorem txEntry_toSend (s : State) {f : List Byte} (hle : f.length ≤ 257) : (s.txEntry f).toSend = f := by
  have hflen : (s.txEntry f).flen.toNat = f.length := flen_toNat hle
  have hk : (s.txEntry f).k.toNat = 0 := rfl
  rw [toSend_of_tx rfl, hflen, hk, List.drop_zero]
  exact obufPrefix_writeList s f

theorem obufPrefix_congr {s t : State} (n : Nat) (hobuf : t.obuf = s.obuf) (hepoch : t.epoch = s.epoch) :
    t.obufPrefix n = s.obufPrefix n := by
  have hat : t.obufAt = s.obufAt := by
    funext i
    rw [State.obufAt, State.obufAt, hobuf, hepoch]
  rw [State.obufPrefix, State.obufPrefix, hat]

/-- EMIT from its first cycle to its completion, at ENC's reference rate (R125). -/
theorem emitDone_afterCycles {s : State} {f : List Byte} {cs : List CycleIn} (hphase : s.phase = .enc) (hop : s.op = .emit)
    (hf : encodePayload (s.ibufPrefix s.inLen.toNat) = .frame f) (hready : f.length ≤ (cs.filter CycleIn.txReady).length) :
    EmitDone (s.txEntry f) (s.afterCycles (CycleIn.quiet :: CycleIn.quiet :: cs)) := by
  obtain ⟨hpos, hle⟩ := frame_length_of_encodePayload hf
  have hflen : (s.txEntry f).flen.toNat = f.length := flen_toNat hle
  have hk : (s.txEntry f).k.toNat = 0 := rfl
  have happend := afterCycles_append s [CycleIn.quiet, CycleIn.quiet] cs
  rw [afterCycles_enc_flush hphase hop hf] at happend
  exact happend ▸ emitDone_afterCycles_tx rfl (by omega) (by omega)

/-- Settles O33: the command starts ENC, and from there the run is EMIT's. -/
theorem emitTransmitsExactlyItsFrame : Obligations.EmitTransmitsExactlyItsFrame := by
  intro s g cs f hlegal hidle hf hcs hready hsched
  obtain ⟨-, hle⟩ := frame_length_of_encodePayload hf
  have hquiet : CycleIn.quiet.unattended := ⟨rfl, rfl⟩
  have hrun := runsTo_command (g := g) (opcode := 2#4) hlegal hidle hsched
    (List.forall_mem_cons.mpr ⟨hquiet, List.forall_mem_cons.mpr ⟨hquiet, hcs⟩⟩)
  have hdone := emitDone_afterCycles (cs := cs) (s := (s.beginCycle (commandCycle g 2#4)).startOpcode 2#4)
    rfl rfl hf hready
  obtain ⟨hphase, hwire, hresult, hfull, hout, hkept⟩ := hdone
  simp only [State.untouchedByTx, Prod.mk.injEq] at hkept
  obtain ⟨hibuf, hinLen, hmsg, hcount, hconsumed, hobuf, -, hepoch⟩ := hkept
  have hcycles : 1 + (CycleIn.quiet :: CycleIn.quiet :: cs).length = 3 + cs.length := by
    simp only [List.length_cons]
    omega
  rw [hcycles] at hrun
  refine ⟨_, hrun, hphase, ?wire, hresult, hfull, ?outLen, ?obuf, hibuf, hinLen, hmsg, hcount, hconsumed⟩
  case wire => rw [hwire, txEntry_toSend _ hle]; rfl
  case outLen => rw [hout]; exact flen_toNat hle
  case obuf => rw [obufPrefix_congr _ hobuf hepoch]; exact obufPrefix_writeList s f

end Sys2Proof.Machine
end

section
/-!
PROOFS. What `decode_all` collects (spec 41_scanner.md section 4): frames of the buffer in order, at most one for three
bytes, none dropped by pass 2, and none in a frame that is cut short.
-/

namespace Sys2Proof.Machine

/-! ### The order of the collected frames -/

/-- The search from a position on collects nothing before it. -/
theorem start_le_of_mem_collectFrames {b : List Byte} {fuel q : Nat} {c : Nat × Nat}
    (h : c ∈ collectFrames b fuel q) : q ≤ c.1 := by
  induction fuel generalizing q with
  | zero => cases h
  | succ n ih =>
    by_cases hf : frameAt b q
    · rw [collectFrames_of_frameAt _ hf, List.mem_cons] at h
      obtain rfl | hrest := h
      · exact le_rfl
      · have := ih hrest
        omega
    · rw [collectFrames_of_not_frameAt _ hf] at h
      have := ih h
      omega

/-- The search goes on behind each frame it collects, so the frames are disjoint and in increasing order (R166(b)). -/
theorem collectFrames_pairwise (b : List Byte) (fuel q : Nat) :
    (collectFrames b fuel q).Pairwise (fun c d => c.1 + c.2 + 2 ≤ d.1) := by
  induction fuel generalizing q with
  | zero => exact List.Pairwise.nil
  | succ n ih =>
    by_cases hf : frameAt b q
    · rw [collectFrames_of_frameAt _ hf]
      exact List.pairwise_cons.mpr ⟨fun d hd => start_le_of_mem_collectFrames hd, ih _⟩
    · rw [collectFrames_of_not_frameAt _ hf]
      exact ih _

/-- Each frame takes at least three bytes of what is left of the buffer (R165). -/
theorem three_mul_length_collectFrames_le {b : List Byte} (fuel : Nat) {q : Nat} (hq : q ≤ b.length) :
    q + 3 * (collectFrames b fuel q).length ≤ b.length := by
  induction fuel generalizing q with
  | zero => exact hq
  | succ n ih =>
    by_cases hf : frameAt b q
    · have hpos := lenAt_pos_of_frameAt hf
      obtain ⟨-, hfits, -⟩ := id hf
      have := ih (q := q + lenAt b q + 2) (by omega)
      rw [collectFrames_of_frameAt _ hf, List.length_cons]
      omega
    · rw [collectFrames_of_not_frameAt _ hf]
      obtain hlt | heq := Nat.lt_or_eq_of_le hq
      · have := ih (q := q + 1) hlt
        omega
      · rw [collectFrames_of_short _ (by rw [← heq, Config.minFrame]; omega)]
        exact hq

theorem frame_in_buffer_of_mem {b : List Byte} {fuel q : Nat} {c : Nat × Nat} (h : c ∈ collectFrames b fuel q) :
    1 ≤ c.2 ∧ c.2 ≤ 255 ∧ c.1 + c.2 + 2 ≤ b.length := by
  obtain ⟨hf, hlen⟩ := frameAt_of_mem_collectFrames h
  have hpos := lenAt_pos_of_frameAt hf
  have hbyte := (byteAt b (c.1 + 1)).isLt
  obtain ⟨-, hfits, -⟩ := hf
  rw [← hlen] at hpos hfits
  refine ⟨hpos, ?_, hfits⟩
  rw [hlen, lenAt]
  omega

theorem lastEnd_collectFrames_le (b : List Byte) (fuel q : Nat) : lastEnd (collectFrames b fuel q) ≤ b.length := by
  cases h : (collectFrames b fuel q).getLast? with
  | none => simp [lastEnd, h]
  | some c =>
    obtain ⟨-, -, hfits⟩ := frame_in_buffer_of_mem (List.mem_of_getLast? h)
    simpa [lastEnd, h] using hfits

theorem lastEnd_eq_elim (cands : List (Nat × Nat)) : lastEnd cands = cands.getLast?.elim 0 fun c => c.1 + c.2 + 2 := by
  cases h : cands.getLast? <;> simp [lastEnd, h]

/-- Settles O37: each clause is a fact about the collecting loop, which `decode_all` reports as it is. -/
theorem collectedFramesAreDisjointFramesInOrder : Obligations.CollectedFramesAreDisjointFramesInOrder := by
  intro b
  refine ⟨fun c hc => ?frame, collectFrames_pairwise b b.length 0, ?consumed, ?consumedLe, ?count⟩
  case frame =>
    obtain ⟨hf, hlen⟩ := frameAt_of_mem_collectFrames hc
    have hpos := lenAt_pos_of_frameAt hf
    obtain ⟨hhdr, hfits, hterm⟩ := hf
    rw [← hlen] at hpos hfits hterm
    exact ⟨hhdr, hlen.symm, hpos, hfits, hterm⟩
  case consumed => rw [decodeAll_eq]; exact lastEnd_eq_elim _
  case consumedLe => rw [decodeAll_eq]; exact lastEnd_collectFrames_le b b.length 0
  case count =>
    rw [decodeAll_eq, decodedOf, List.length_map]
    have := three_mul_length_collectFrames_le b.length (Nat.zero_le b.length)
    omega

/-- Settles O38: pass 1 already puts the whole candidate inside the buffer. -/
theorem passTwoDropsNothing : Obligations.PassTwoDropsNothing :=
  fun b => filter_lengthConsistent_collectFrames b b.length 0

/-! ### A frame that is cut short -/

theorem decodeAll_of_no_frame {b : List Byte} (h : ∀ q, ¬frameAt b q) :
    decodeAll b = { msgs := [], consumed := 0, descs := [] } := by
  have hnil : collectFrames b b.length 0 = [] :=
    List.eq_nil_iff_forall_not_mem.mpr fun c hc => h c.1 (frameAt_of_mem_collectFrames hc).1
  rw [decodeAll_eq, hnil, decodedOf_nil]

theorem byteAt_take {f : List Byte} {k i : Nat} (h : i < k) : byteAt (f.take k) i = byteAt f i := by
  simp [byteAt, List.getD_eq_getElem?_getD, h]

theorem byteAt_mem_or_zero (b : List Byte) (i : Nat) : byteAt b i ∈ b ∨ byteAt b i = 0#8 := by
  obtain h | h := Nat.lt_or_ge i b.length
  · rw [byteAt, List.getD_eq_getElem _ _ h]
    exact .inl (List.getElem_mem h)
  · exact .inr (List.getD_eq_default _ _ h)

theorem lengthByte_ne_hdr {n : Nat} (hle : n ≤ 255) (hne : n ≠ 0xAA) : BitVec.ofNat 8 n ≠ Config.hdr := by
  intro h
  have := congrArg BitVec.toNat h
  rw [BitVec.toNat_ofNat, Config.hdr, BitVec.toNat_ofNat] at this
  omega

/-- The only header in such a frame is its own: neither its length byte, nor its payload, nor its terminator is one. -/
theorem eq_zero_of_header_in_frame {p : List Byte} {q : Nat} (hp : Config.hdr ∉ p) (hlen : p.length ≤ 254)
    (hne : p.length + 1 ≠ 0xAA) (h : byteAt (frameOf p) q = Config.hdr) : q = 0 := by
  match q with
  | 0 => rfl
  | 1 => exact absurd h (lengthByte_ne_hdr (Nat.succ_le_succ hlen) hne)
  | i + 2 =>
    have hbody : byteAt (frameOf p) (i + 2) = byteAt (p ++ [Config.term]) i := by
      rw [frameOf, List.append_assoc, Nat.add_comm i 2]
      exact byteAt_append_add [Config.hdr, BitVec.ofNat 8 (p.length + 1)] (p ++ [Config.term]) i
    rw [hbody] at h
    obtain hmem | hzero := byteAt_mem_or_zero (p ++ [Config.term]) i
    · rw [h, List.mem_append, List.mem_singleton] at hmem
      exact absurd hmem (not_or.mpr ⟨hp, by decide⟩)
    · rw [h] at hzero
      exact absurd hzero (by decide)

/-- At the frame's own header the terminator is missing; no other byte is a header (R172(a)). -/
theorem not_frameAt_take_frameOf {p : List Byte} {k : Nat} (hp : Config.hdr ∉ p) (hlen : p.length ≤ 254)
    (hne : p.length + 1 ≠ 0xAA) (hk : k < (frameOf p).length) (q : Nat) : ¬frameAt ((frameOf p).take k) q := by
  intro hframe
  have hpos := lenAt_pos_of_frameAt hframe
  obtain ⟨hhdr, hfits, -⟩ := hframe
  rw [List.length_take, frameOf_length] at hfits
  rw [frameOf_length] at hk
  rw [byteAt_take (by omega)] at hhdr
  obtain rfl := eq_zero_of_header_in_frame hp hlen hne hhdr
  have hlenAt : lenAt ((frameOf p).take k) 0 = p.length + 1 := by
    rw [lenAt, byteAt_take (by omega), ← lenAt, ← List.append_nil (frameOf p), lenAt_frameOf_append [] hlen]
  rw [hlenAt] at hfits
  omega

/-- Settles O39: no frame starts anywhere in what is left of the frame. -/
theorem truncatedFrameYieldsNoMessage : Obligations.TruncatedFrameYieldsNoMessage := by
  intro p f k hlen hterm henc hk hp hne
  obtain rfl := eq_frameOf_of_encodePayload hlen hterm henc
  exact decodeAll_of_no_frame (not_frameAt_take_frameOf hp hlen hne hk)

end Sys2Proof.Machine
end

section
/-!
PROOFS. The SCAN phase (spec 41_scanner.md R161 to R164; 42_receiver.md R199): its steps are the positions that
`decode_all` examines, it finishes inside its buffer, what it leaves does not depend on how its steps are spread over
cycles, and DECODE's run.
-/

namespace Sys2Proof.Machine

/-! ### One step of the loop and one position of `decode_all` -/

/-- The bytes under the scan: IBUF[0 .. len) (R160). -/
def State.scanned (s : State) : List Byte := s.ibufPrefix s.len.toNat

@[simp] theorem scanned_length (s : State) : s.scanned.length = s.len.toNat := ibufPrefix_length s _

theorem byteAt_ibufPrefix (s : State) {i n : Nat} (h : i < n) : byteAt (s.ibufPrefix n) i = s.ibufAt i := by
  simp [byteAt, State.ibufPrefix, List.getD_eq_getElem?_getD, h]

theorem byteAt_scanned {s : State} {i : Nat} (h : i < s.len.toNat) : byteAt s.scanned i = s.ibufAt i :=
  byteAt_ibufPrefix s h

theorem lenAt_scanned {s : State} {q : Nat} (h : q + 1 < s.len.toNat) :
    lenAt s.scanned q = (s.ibufAt (q + 1)).toNat := by
  rw [lenAt, byteAt_scanned h]

/-- Accept one candidate: write its descriptor, count it, remember its end (R157, R162). -/
def State.accept (s : State) (c : Nat × Nat) : State :=
  { s with
    msg := s.msg.write s.n.toNat (descriptor (c.1 + 2) (c.2 - 1)), n := s.n + 1#16
    last := BitVec.ofNat 17 (c.1 + c.2 + 2) }

def State.acceptAll (s : State) (cands : List (Nat × Nat)) : State := cands.foldl State.accept s

/-- The cursor moved, everything else as it is. -/
def State.withCursor (s : State) (q : BitVec 17) : State := { s with q := q }

/-- Accepting candidates neither reads nor writes the cursor. -/
theorem acceptAll_withCursor (s : State) (cands : List (Nat × Nat)) (q q' : BitVec 17) :
    ((s.withCursor q).acceptAll cands).withCursor q' = (s.acceptAll cands).withCursor q' := by
  induction cands generalizing s with
  | nil => rfl
  | cons c cands ih => exact ih (s.accept c)

theorem scanStep_of_short {s : State} (h : s.len.toNat < s.q.toNat + 3) : scanStep s = finishScan s := by
  exact if_pos h

theorem scanStep_of_frameAt {s : State} (h : frameAt s.scanned s.q.toNat) :
    scanStep s = (s.accept (s.q.toNat, lenAt s.scanned s.q.toNat)).withCursor
      (BitVec.ofNat 17 (s.q.toNat + lenAt s.scanned s.q.toNat + 2)) := by
  have hpos := lenAt_pos_of_frameAt h
  obtain ⟨hhdr, hfits, hterm⟩ := h
  rw [scanned_length] at hfits
  have hlong : ¬s.len.toNat < s.q.toNat + Config.minFrame := by
    unfold Config.minFrame
    omega
  rw [byteAt_scanned (by omega)] at hhdr
  rw [byteAt_scanned hfits] at hterm
  rw [lenAt_scanned (by omega)] at hfits hterm ⊢
  rw [scanStep, if_neg hlong, if_neg (not_not.mpr hhdr)]
  exact if_pos ⟨hfits, hterm⟩

theorem scanStep_of_not_frameAt {s : State} (hlong : s.q.toNat + 3 ≤ s.len.toNat) (h : ¬frameAt s.scanned s.q.toNat) :
    scanStep s = s.withCursor (s.q + 1#17) := by
  have hlong' : ¬s.len.toNat < s.q.toNat + Config.minFrame := by
    unfold Config.minFrame
    omega
  rw [scanStep, if_neg hlong']
  by_cases hhdr : s.ibufAt s.q.toNat = Config.hdr
  · rw [if_neg (not_not.mpr hhdr)]
    refine if_neg fun ⟨hfits, hterm⟩ => h ⟨?_, ?_⟩
    · rwa [byteAt_scanned (by omega)]
    · rw [scanned_length, lenAt_scanned (by omega), byteAt_scanned hfits]
      exact ⟨hfits, hterm⟩
  · exact if_pos hhdr

/-! ### The scan ends inside its buffer -/

theorem finishScan_not_scan (s : State) : (finishScan s).phase ≠ .scan := by
  rw [finishScan_phase]
  decide

/-- A completed scan makes no further step. -/
theorem scanSteps_of_short {s : State} {k : Nat} (hphase : s.phase = .scan) (hk : 1 ≤ k)
    (h : s.len.toNat < s.q.toNat + 3) : scanSteps k s = finishScan s := by
  obtain ⟨k, rfl⟩ := Nat.exists_eq_add_of_le' hk
  rw [scanSteps_succ k s hphase, scanStep_of_short h, scanSteps_done k _ (finishScan_not_scan s)]

/-- The cursor behind an accepted frame stays inside the buffer, and fits its 17 bits (R164). -/
theorem next_cursor_toNat {s : State} (h : frameAt s.scanned s.q.toNat) :
    (BitVec.ofNat 17 (s.q.toNat + lenAt s.scanned s.q.toNat + 2)).toNat =
        s.q.toNat + lenAt s.scanned s.q.toNat + 2 ∧
      s.q.toNat + lenAt s.scanned s.q.toNat + 2 ≤ s.len.toNat := by
  obtain ⟨-, hfits, -⟩ := h
  rw [scanned_length] at hfits
  have := s.len.isLt
  refine ⟨?_, hfits⟩
  rw [BitVec.toNat_ofNat]
  omega

theorem cursor_succ_toNat {s : State} (h : s.q.toNat + 3 ≤ s.len.toNat) : (s.q + 1#17).toNat = s.q.toNat + 1 := by
  have := s.len.isLt
  rw [BitVec.toNat_add, BitVec.toNat_ofNat]
  omega

/-- The loop from the cursor on is the search of `decode_all` from there on: it accepts what that collects and finishes.
The steps it needs are one for each position before the last two bytes, and at least one to finish (R162, R164). -/
theorem exists_scanSteps_eq_finishScan {s : State} {k fuel : Nat} (hphase : s.phase = .scan) (hq : s.q.toNat ≤ s.len.toNat)
    (hk : max (s.len.toNat - s.q.toNat - 1) 1 ≤ k) (hfuel : s.len.toNat ≤ s.q.toNat + fuel) :
    ∃ q, scanSteps k s = finishScan ((s.acceptAll (collectFrames s.scanned fuel s.q.toNat)).withCursor q) := by
  induction k generalizing s fuel with
  | zero => omega
  | succ k ih =>
    obtain hshort | hlong := Nat.lt_or_ge s.len.toNat (s.q.toNat + 3)
    · rw [collectFrames_of_short fuel (by rwa [scanned_length]), scanSteps_of_short hphase (Nat.le_add_left ..) hshort]
      exact ⟨s.q, rfl⟩
    · obtain ⟨fuel, rfl⟩ := Nat.exists_eq_add_of_le' (show 1 ≤ fuel by omega)
      have advance (u : State) (cursor : BitVec 17) (next : Nat) (hu : u.phase = .scan) (hlen : u.len = s.len)
          (hscanned : u.scanned = s.scanned) (hcursor : cursor.toNat = next) (hlt : s.q.toNat < next)
          (hle : next ≤ s.len.toNat) :
          ∃ q, scanSteps k (u.withCursor cursor) =
            finishScan ((u.acceptAll (collectFrames s.scanned fuel next)).withCursor q) := by
        subst hcursor
        have hlen' : (u.withCursor cursor).len = s.len := hlen
        have hq' : (u.withCursor cursor).q = cursor := rfl
        obtain ⟨q, hrest⟩ := ih (s := u.withCursor cursor) (fuel := fuel) hu (by rwa [hlen']) (by rw [hlen', hq']; omega)
          (by rw [hlen', hq']; omega)
        rw [acceptAll_withCursor] at hrest
        exact ⟨q, hscanned ▸ hrest⟩
      rw [scanSteps_succ k s hphase]
      by_cases hframe : frameAt s.scanned s.q.toNat
      · obtain ⟨hcursor, hfits⟩ := next_cursor_toNat hframe
        rw [scanStep_of_frameAt hframe, collectFrames_of_frameAt fuel hframe]
        exact advance (s.accept _) _ _ hphase rfl rfl hcursor (by omega) hfits
      · rw [scanStep_of_not_frameAt hlong hframe, collectFrames_of_not_frameAt fuel hframe]
        exact advance s _ _ hphase rfl rfl (cursor_succ_toNat hlong) (Nat.lt_succ_self _) (by omega)

/-! ### What accepting candidates leaves -/

/-- The descriptor of a candidate's message (R100, R162). -/
def candidateDescriptor (c : Nat × Nat) : Word := descriptor (c.1 + 2) (c.2 - 1)

theorem acceptAll_n {s : State} {cands : List (Nat × Nat)} (h : s.n.toNat + cands.length < 65536) :
    (s.acceptAll cands).n.toNat = s.n.toNat + cands.length := by
  induction cands generalizing s with
  | nil => rfl
  | cons c cands ih =>
    rw [List.length_cons] at h ⊢
    have hcount : (s.accept c).n.toNat = s.n.toNat + 1 := by
      rw [State.accept, BitVec.toNat_add, BitVec.toNat_ofNat]
      omega
    have hrest := ih (s := s.accept c) (by omega)
    rw [hcount] at hrest
    exact hrest.trans (by omega)

theorem acceptAll_msg {s : State} {cands : List (Nat × Nat)} (h : s.n.toNat + cands.length < 65536) :
    (s.acceptAll cands).msg = s.msg.writeList s.n.toNat (cands.map candidateDescriptor) := by
  induction cands generalizing s with
  | nil => rfl
  | cons c cands ih =>
    rw [List.length_cons] at h
    have hcount : (s.accept c).n.toNat = s.n.toNat + 1 := by
      rw [State.accept, BitVec.toNat_add, BitVec.toNat_ofNat]
      omega
    have hrest := ih (s := s.accept c) (by omega)
    rw [hcount] at hrest
    exact hrest

theorem lastEnd_cons (c : Nat × Nat) (cands : List (Nat × Nat)) :
    lastEnd (c :: cands) = if cands = [] then c.1 + c.2 + 2 else lastEnd cands :=
  congrArg Decoded.consumed (decodedOf_cons [] c cands)

theorem acceptAll_last {s : State} {cands : List (Nat × Nat)} (h : ∀ c ∈ cands, c.1 + c.2 + 2 < 131072) :
    (s.acceptAll cands).last.toNat = if cands = [] then s.last.toNat else lastEnd cands := by
  induction cands generalizing s with
  | nil => rfl
  | cons c cands ih =>
    obtain ⟨hc, hcands⟩ := List.forall_mem_cons.mp h
    have hend : (s.accept c).last.toNat = c.1 + c.2 + 2 := by
      rw [State.accept, BitVec.toNat_ofNat]
      omega
    have hrest := ih (s := s.accept c) hcands
    rw [hend] at hrest
    rw [if_neg (List.cons_ne_nil c cands), lastEnd_cons]
    exact hrest

/-! ### What a scan may change -/

/-- The state with everything removed that a scan writes (R162, R163, R199). -/
def State.withoutScan (s : State) : State :=
  { s with
    phase := .idle, msgCount := 0#16, consumed := 0#16, msg := [], result := .none, windowFull := false, inLen := 0#16
    q := 0#17, n := 0#16, last := 0#17 }

theorem finishScan_withoutScan (s : State) : (finishScan s).withoutScan = s.withoutScan := by
  obtain ⟨-, h⟩ | ⟨-, h⟩ := finishScan_cases s <;> rw [h] <;> rfl

theorem scanStep_withoutScan (s : State) : (scanStep s).withoutScan = s.withoutScan := by
  obtain ⟨-, h⟩ | ⟨-, h⟩ | ⟨l, -, -, -, -, -, -, h⟩ := scanStep_cases s
  · rw [h, finishScan_withoutScan]
  · rw [h]; rfl
  · rw [h]; rfl

theorem scanSteps_withoutScan (work : Nat) (s : State) : (scanSteps work s).withoutScan = s.withoutScan :=
  scanSteps_induction (fun t => t.withoutScan = s.withoutScan) (fun t _ h => (scanStep_withoutScan t).trans h) work s rfl

/-- Two states that agree in everything else differ only in what a scan writes. -/
theorem eq_of_withoutScan {s t : State} (h : t.withoutScan = s.withoutScan) :
    t = { s with
      phase := t.phase, msgCount := t.msgCount, consumed := t.consumed, msg := t.msg, result := t.result
      windowFull := t.windowFull, inLen := t.inLen, q := t.q, n := t.n, last := t.last } := by
  simp only [State.withoutScan, State.mk.injEq] at h
  cases t
  simp_all

theorem withoutScan_keeps {s t : State} (h : t.withoutScan = s.withoutScan) :
    t.op = s.op ∧ t.wlen = s.wlen ∧ t.full = s.full ∧ t.ibuf = s.ibuf ∧ t.epoch = s.epoch := by
  simp only [State.withoutScan, State.mk.injEq] at h
  tauto

/-! ### What a finished scan reports -/

theorem slice_ibufPrefix (s : State) {lo hi n : Nat} (h : hi ≤ n) :
    slice (s.ibufPrefix n) lo hi = (List.range (hi - lo)).map fun j => s.ibufAt (lo + j) := by
  apply List.ext_getElem
  · simp [slice, State.ibufPrefix]
    omega
  · intro j hj hj'
    simp [slice, State.ibufPrefix]

/-- Every candidate's descriptor holds its message's offset and length in their fields, without loss (R100, log 16). -/
theorem candidateDescriptor_fields {c : Nat × Nat} {n : Nat} (hn : n ≤ 65535) (hc : c.2 ≤ 255 ∧ c.1 + c.2 + 2 ≤ n) :
    descOffset (candidateDescriptor c) = c.1 + 2 ∧ descPlen (candidateDescriptor c) = c.2 - 1 ∧
      (candidateDescriptor c).extractLsb' 24 8 = 0#8 :=
  descriptor_fields (c.1 + 2) (c.2 - 1) (by omega) (by omega)


/-- A state that counts the candidates, remembers the end of the last one, and holds their descriptors from index 0 on. -/
structure HoldsCandidates (s t : State) (cands : List (Nat × Nat)) : Prop where
  count : t.msgCount.toNat = cands.length
  consumed : t.consumed.toNat = lastEnd cands
  msg : t.msg = s.msg.writeList 0 (cands.map candidateDescriptor)
  ibuf : t.ibuf = s.ibuf
  epoch : t.epoch = s.epoch

section
variable {s t : State} {cands : List (Nat × Nat)}

theorem HoldsCandidates.msgAt (h : HoldsCandidates s t cands) {i : Nat} (hi : i < cands.length) :
    t.msgAt i = candidateDescriptor cands[i] := by
  rw [State.msgAt, h.msg, Memory.read_writeList, dif_pos (by simpa using hi)]
  simp

theorem HoldsCandidates.msgAt_above (h : HoldsCandidates s t cands) {i : Nat} (hi : cands.length ≤ i) :
    t.msgAt i = s.msgAt i := by
  rw [State.msgAt, h.msg, Memory.read_writeList, dif_neg (by simpa using hi), h.epoch, State.msgAt]

theorem HoldsCandidates.ibufAt (h : HoldsCandidates s t cands) : t.ibufAt = s.ibufAt := by
  funext i
  rw [State.ibufAt, State.ibufAt, h.ibuf, h.epoch]

/-- The bytes that a descriptor points to are the message of its candidate (R101). -/
theorem HoldsCandidates.messageBytes (h : HoldsCandidates s t cands) {n i : Nat} (hn : n ≤ 65535)
    (hcands : ∀ c ∈ cands, 1 ≤ c.2 ∧ c.2 ≤ 255 ∧ c.1 + c.2 + 2 ≤ n) (hi : i < cands.length) :
    t.messageBytes i = slice (s.ibufPrefix n) (cands[i].1 + 2) (cands[i].1 + cands[i].2 + 1) := by
  obtain ⟨hpos, hfits⟩ := hcands _ (List.getElem_mem hi)
  obtain ⟨hoffset, hplen, -⟩ := candidateDescriptor_fields hn hfits
  have hwidth : cands[i].1 + cands[i].2 + 1 - (cands[i].1 + 2) = cands[i].2 - 1 := by omega
  rw [State.messageBytes, h.msgAt hi, hoffset, hplen, h.ibufAt, slice_ibufPrefix s (by omega), hwidth]

/-- Such a state reports what `decode_all` gives for the candidates (R100, R101, R150). -/
theorem HoldsCandidates.reports (h : HoldsCandidates s t cands) {n : Nat} (hn : n ≤ 65535)
    (hcands : ∀ c ∈ cands, 1 ≤ c.2 ∧ c.2 ≤ 255 ∧ c.1 + c.2 + 2 ≤ n) :
    t.reports (decodedOf (s.ibufPrefix n) cands) := by
  have hlength : (decodedOf (s.ibufPrefix n) cands).descs.length = cands.length := List.length_map _
  refine ⟨h.count.trans hlength.symm, h.consumed, fun i hi => ?descriptor, ?messages⟩
  case descriptor =>
    rw [hlength] at hi
    obtain ⟨-, hfits⟩ := hcands _ (List.getElem_mem hi)
    rw [h.msgAt hi]
    simpa [decodedOf, descOffset, descPlen] using candidateDescriptor_fields hn hfits
  case messages =>
    rw [hlength]
    apply List.ext_getElem
    · simp [decodedOf]
    · intro i hi hi'
      have hi'' : i < cands.length := by simpa using hi'
      simp [decodedOf, h.messageBytes hn hcands hi'']

/-! ### The whole phase -/

theorem finishScan_counts (s : State) :
    (finishScan s).msgCount = s.n ∧ (finishScan s).consumed = s.last.setWidth 16 ∧ (finishScan s).msg = s.msg := by
  obtain ⟨-, h⟩ | ⟨-, h⟩ := finishScan_cases s <;> rw [h] <;> exact ⟨rfl, rfl, rfl⟩

theorem finishScan_of_decode (h : s.op ≠ .receive) : finishScan s = finishDecode s := if_neg h

theorem finishScan_of_receive (h : s.op = .receive) : finishScan s = finishReceive s := if_pos h

theorem acceptAll_withoutScan (s : State) (cands : List (Nat × Nat)) :
    (s.acceptAll cands).withoutScan = s.withoutScan := by
  induction cands generalizing s with
  | nil => rfl
  | cons c cands ih => exact ih (s.accept c)

theorem acceptAll_inLen (s : State) (cands : List (Nat × Nat)) : (s.acceptAll cands).inLen = s.inLen := by
  induction cands generalizing s with
  | nil => rfl
  | cons c cands ih => exact ih (s.accept c)

theorem acceptAll_last_of_zero (h : s.last.toNat = 0) (hends : ∀ c ∈ cands, c.1 + c.2 + 2 < 131072) :
    (s.acceptAll cands).last.toNat = lastEnd cands := by
  rw [acceptAll_last hends]
  split_ifs with hnil
  · rw [h, hnil]; rfl
  · rfl

/-- Finishing after the acceptance of `cands` leaves them counted and written (R163). -/
theorem holdsCandidates_finishScan {u : State} (hmsg : u.msg = s.msg.writeList 0 (cands.map candidateDescriptor))
    (hn : u.n.toNat = cands.length) (hlast : u.last.toNat = lastEnd cands) (hend : lastEnd cands < 65536)
    (hkept : u.withoutScan = s.withoutScan) : HoldsCandidates s (finishScan u) cands := by
  obtain ⟨hcount, hconsumed, hmsg'⟩ := finishScan_counts u
  obtain ⟨-, -, -, hibuf, hepoch⟩ := withoutScan_keeps ((finishScan_withoutScan u).trans hkept)
  refine ⟨by rw [hcount, hn], ?consumed, hmsg'.trans hmsg, hibuf, hepoch⟩
  case consumed =>
    rw [hconsumed, BitVec.toNat_setWidth, hlast]
    omega

/-- What the scan loop finishes with: the candidates of the scanned bytes, counted and written (R162, R164). -/
theorem exists_finishScan_of_entry {k : Nat} (hphase : s.phase = .scan) (hq : s.q = 0#17) (hn : s.n = 0#16)
    (hlast : s.last = 0#17) (hk : max (s.len.toNat - 1) 1 ≤ k) :
    ∃ u, scanSteps k s = finishScan u ∧ u.withoutScan = s.withoutScan ∧ u.inLen = s.inLen ∧
      u.n.toNat = (collectFrames s.scanned s.scanned.length 0).length ∧
      HoldsCandidates s (finishScan u) (collectFrames s.scanned s.scanned.length 0) := by
  have hlen := s.len.isLt
  have hq' : s.q.toNat = 0 := by rw [hq]; rfl
  have hn' : s.n.toNat = 0 := by rw [hn]; rfl
  have hlast' : s.last.toNat = 0 := by rw [hlast]; rfl
  obtain ⟨q, h⟩ := exists_scanSteps_eq_finishScan (k := k) (fuel := s.scanned.length) hphase (by omega) (by omega)
    (by rw [scanned_length]; omega)
  rw [hq'] at h
  have hcount := three_mul_length_collectFrames_le s.scanned.length (Nat.zero_le s.scanned.length)
  have hend := lastEnd_collectFrames_le s.scanned s.scanned.length 0
  have hends (c : Nat × Nat) (hc : c ∈ collectFrames s.scanned s.scanned.length 0) : c.1 + c.2 + 2 < 131072 := by
    obtain ⟨-, -, hfits⟩ := frame_in_buffer_of_mem hc
    rw [scanned_length] at hfits
    omega
  have hbound : s.n.toNat + (collectFrames s.scanned s.scanned.length 0).length < 65536 := by
    rw [scanned_length] at hcount ⊢
    omega
  have hmsg := acceptAll_msg hbound
  rw [hn'] at hmsg
  have hn'' := acceptAll_n hbound
  rw [hn', Nat.zero_add] at hn''
  have hkept := acceptAll_withoutScan s (collectFrames s.scanned s.scanned.length 0)
  exact ⟨_, h, hkept, acceptAll_inLen s _, hn'', holdsCandidates_finishScan hmsg hn'' (acceptAll_last_of_zero hlast' hends)
    (by rw [scanned_length] at hend ⊢; omega) hkept⟩

end

/-- Settles O40: the loop accepts the candidates of `decode_all`, and a finished scan reports them. -/
theorem scanPhaseComputesDecodeAll : Obligations.ScanPhaseComputesDecodeAll := by
  intro s k hlegal hphase hq hn hlast hlen hk t d
  obtain ⟨-, hmax, -⟩ := (legal_iff _).mp hlegal
  obtain ⟨u, ht, hkept, hinLen, hcount, hholds⟩ := exists_finishScan_of_entry hphase hq hn hlast hk
  have ht' : t = finishScan u := ht
  have hd : d = decodedOf s.scanned (collectFrames s.scanned s.scanned.length 0) := decodeAll_eq s.scanned
  have hdescs : d.descs.length = (collectFrames s.scanned s.scanned.length 0).length := by rw [hd]; exact List.length_map _
  have hcands (c : Nat × Nat) (hc : c ∈ collectFrames s.scanned s.scanned.length 0) :
      1 ≤ c.2 ∧ c.2 ≤ 255 ∧ c.1 + c.2 + 2 ≤ s.len.toNat := by
    have := frame_in_buffer_of_mem hc
    rwa [scanned_length] at this
  have hframe : t = _ := eq_of_withoutScan (scanSteps_withoutScan k s)
  obtain ⟨hop, hwlen, hfull, -⟩ := withoutScan_keeps hkept
  refine ⟨by rw [ht', finishScan_phase], ?reports, fun i hi => ?above, fun hdecode => ?decode, fun hreceive => ?receive,
    hframe⟩
  case reports => rw [ht', hd]; exact hholds.reports (hlen.trans hmax) hcands
  case above => rw [ht']; exact hholds.msgAt_above (hdescs ▸ hi)
  case decode =>
    rw [ht', finishScan_of_decode (by rwa [hop])]
    exact ⟨rfl, rfl, hinLen⟩
  case receive =>
    have hnone : u.n = 0#16 ↔ d.descs = [] := by
      rw [← BitVec.toNat_inj, hcount, ← hdescs]
      exact List.length_eq_zero_iff
    rw [ht', finishScan_of_receive (by rwa [hop])]
    exact ⟨if_congr hnone rfl rfl, hfull, hwlen⟩

/-! ### Completion in time -/

/-- A scan that has made enough steps has completed (R164). -/
theorem scanSteps_phase {s : State} {k : Nat} (hphase : s.phase = .scan) (hq : s.q.toNat ≤ s.len.toNat)
    (hk : max (s.len.toNat - s.q.toNat - 1) 1 ≤ k) : (scanSteps k s).phase = .idle := by
  obtain ⟨q, h⟩ := exists_scanSteps_eq_finishScan (fuel := s.len.toNat) hphase hq hk (Nat.le_add_left ..)
  rw [h, finishScan_phase]

/-- Settles O42: the loop finishes two steps earlier than that, but never without a step. -/
theorem scanFinishesWithinItsBuffer : Obligations.ScanFinishesWithinItsBuffer :=
  fun _ _ hphase hq hk => scanSteps_phase hphase hq (by omega)

/-- Enough steps and more of them leave the same state: a completed scan makes no further step. -/
theorem scanSteps_eq_of_enough {s : State} {k m : Nat} (hphase : s.phase = .scan) (hq : s.q.toNat ≤ s.len.toNat)
    (hk : max (s.len.toNat - s.q.toNat - 1) 1 ≤ k) (hm : max (s.len.toNat - s.q.toNat - 1) 1 ≤ m) :
    scanSteps m s = scanSteps k s := by
  have hdone (j : Nat) (hj : max (s.len.toNat - s.q.toNat - 1) 1 ≤ j) :
      scanSteps j s = scanSteps (max (s.len.toNat - s.q.toNat - 1) 1) s := by
    obtain ⟨extra, rfl⟩ := Nat.exists_eq_add_of_le hj
    rw [scanSteps_add]
    refine scanSteps_done _ _ ?_
    rw [scanSteps_phase hphase hq le_rfl]
    decide
  rw [hdone k hk, hdone m hm]

/-! ### A scan spread over cycles -/

/-- The state with other inputs of its cycle: what no step of the scan reads or writes. -/
def State.withInputs (s : State) (sched : List CycleIn) (rxFifo : List Byte) (pins : Pins) (rdata : Option Word) : State :=
  { s with sched := sched, rxFifo := rxFifo, pins := pins, rdata := rdata }

section
variable (s : State) (sched : List CycleIn) (rxFifo : List Byte) (pins : Pins) (rdata : Option Word)

theorem finishScan_withInputs :
    finishScan (s.withInputs sched rxFifo pins rdata) = (finishScan s).withInputs sched rxFifo pins rdata := by
  by_cases hop : s.op = .receive
  · rw [finishScan_of_receive hop, finishScan_of_receive (by exact hop)]; rfl
  · rw [finishScan_of_decode hop, finishScan_of_decode (by exact hop)]; rfl

theorem scanStep_withInputs :
    scanStep (s.withInputs sched rxFifo pins rdata) = (scanStep s).withInputs sched rxFifo pins rdata := by
  obtain hshort | hlong := Nat.lt_or_ge s.len.toNat (s.q.toNat + 3)
  · rw [scanStep_of_short hshort, scanStep_of_short (by exact hshort), finishScan_withInputs]
  · by_cases hframe : frameAt s.scanned s.q.toNat
    · rw [scanStep_of_frameAt hframe, scanStep_of_frameAt (by exact hframe)]; rfl
    · rw [scanStep_of_not_frameAt hlong hframe, scanStep_of_not_frameAt (by exact hlong) (by exact hframe)]; rfl

theorem scanSteps_withInputs (work : Nat) :
    scanSteps work (s.withInputs sched rxFifo pins rdata) =
      (scanSteps work s).withInputs sched rxFifo pins rdata := by
  induction work generalizing s with
  | zero => rfl
  | succ work ih =>
    by_cases hphase : s.phase = .scan
    · rw [scanSteps_succ work s hphase, scanSteps_succ work _ (by exact hphase), scanStep_withInputs, ih]
    · rw [scanSteps_done _ s hphase, scanSteps_done _ _ (by exact hphase)]

end

/-- A cycle's own inputs and the steps of the scan do not touch each other (R162, R170). -/
theorem scanSteps_beginCycle (work : Nat) (s : State) (c : CycleIn) :
    scanSteps work (s.beginCycle c) = (scanSteps work s).beginCycle c := by
  have hkept := scanSteps_withoutScan work s
  simp only [State.withoutScan, State.mk.injEq] at hkept
  have hsched : (scanSteps work s).sched = s.sched := by tauto
  have hfifo : (scanSteps work s).rxFifo = s.rxFifo := by tauto
  have hbegin (t : State) : t.beginCycle c = t.withInputs t.sched.tail (t.rxFifo ++ c.arrive) Pins.quiet none := rfl
  rw [hbegin, hbegin, scanSteps_withInputs, hsched, hfifo]

/-- A scan is in SCAN until it has completed. -/
theorem scanSteps_phase_cases {s : State} (work : Nat) (h : s.phase = .scan ∨ s.phase = .idle) :
    (scanSteps work s).phase = .scan ∨ (scanSteps work s).phase = .idle := by
  refine scanSteps_induction (fun t => t.phase = .scan ∨ t.phase = .idle) (fun t hscan _ => ?_) work s h
  obtain ⟨-, h⟩ | ⟨-, h⟩ | ⟨l, -, -, -, -, -, -, h⟩ := scanStep_cases t <;> rw [h]
  · exact .inr (finishScan_phase t)
  · exact .inl hscan
  · exact .inl hscan

/-- An unattended cycle of a scan, completed or not, is its steps and then the cycle's own inputs. -/
theorem controllerStep_beginCycle_of_scan {s : State} (c : CycleIn) (h : s.phase = .scan ∨ s.phase = .idle) :
    controllerStep c (s.beginCycle c) = (scanSteps c.work s).beginCycle c := by
  rw [← scanSteps_beginCycle]
  obtain hphase | hphase := h
  · exact controllerStep_scan c _ hphase
  · rw [controllerStep_idle c _ (by exact hphase), scanSteps_done _ _ (by simp [hphase])]

/-- However the steps are spread over unattended cycles, they are the same steps, and then the cycles' own inputs. -/
theorem afterCycles_of_scan {s : State} (cs : List CycleIn) (h : s.phase = .scan ∨ s.phase = .idle) :
    s.afterCycles cs = cs.foldl State.beginCycle (scanSteps (cs.map CycleIn.work).sum s) := by
  induction cs generalizing s with
  | nil => rfl
  | cons c cs ih =>
    have hphase := scanSteps_phase_cases c.work h
    rw [afterCycles_cons, controllerStep_beginCycle_of_scan c h, ih (by exact hphase), scanSteps_beginCycle,
      ← scanSteps_add, List.map_cons, List.sum_cons, List.foldl_cons]

theorem foldl_beginCycle_withoutInputs (cs : List CycleIn) (s : State) :
    (cs.foldl State.beginCycle s).withoutInputs = s.withoutInputs := by
  induction cs generalizing s with
  | nil => rfl
  | cons c cs ih => exact ih (s.beginCycle c)

/-- The cycles' own inputs: the schedule is used up, the arrivals are in the transport, nothing is driven or answered. -/
theorem foldl_beginCycle_eq {s : State} {cs : List CycleIn} (hne : cs ≠ []) (hsched : s.sched = cs) :
    cs.foldl State.beginCycle s = s.withInputs [] (s.rxFifo ++ cs.flatMap CycleIn.arrive) Pins.quiet none := by
  induction cs generalizing s with
  | nil => exact absurd rfl hne
  | cons c cs ih =>
    have hsched' : (s.beginCycle c).sched = cs := by rw [beginCycle_sched, hsched, List.tail_cons]
    rw [List.foldl_cons]
    by_cases hlast : cs = []
    · subst hlast
      rw [List.foldl_nil, List.flatMap_cons, List.flatMap_nil, List.append_nil, ← hsched']
      rfl
    · rw [ih hlast hsched', List.flatMap_cons, ← List.append_assoc]
      rfl

/-- What unattended cycles make of a scan: all their steps, and their inputs (R162, R320). -/
theorem afterCycles_eq_scanSteps {s : State} {cs : List CycleIn} (hphase : s.phase = .scan) (hne : cs ≠ []) :
    State.afterCycles { s with sched := cs } cs =
      (scanSteps (cs.map CycleIn.work).sum s).withInputs [] (s.rxFifo ++ cs.flatMap CycleIn.arrive) Pins.quiet none := by
  have hinputs : ({ s with sched := cs } : State) = s.withInputs cs s.rxFifo s.pins s.rdata := rfl
  rw [afterCycles_of_scan cs (.inl (by exact hphase)), hinputs, scanSteps_withInputs, foldl_beginCycle_eq hne rfl]
  rfl

/-- Settles O41: both runs make enough steps, so both leave what the scan leaves, with their own arrivals. -/
theorem scanIsIndependentOfItsCycleCount : Obligations.ScanIsIndependentOfItsCycleCount := by
  intro s cs ds hlegal hphase hq hcs hds hworkC hworkD
  have nonempty {es : List CycleIn} (hwork : s.len.toNat - s.q.toNat + 1 ≤ (es.map CycleIn.work).sum) : es ≠ [] := by
    rintro rfl
    simp at hwork
  have hsame := scanSteps_eq_of_enough (k := (cs.map CycleIn.work).sum) (m := (ds.map CycleIn.work).sum) hphase hq
    (by omega) (by omega)
  have hrunC := runsTo_afterCycles (s := { s with sched := cs }) hlegal rfl hcs
  have hrunD := runsTo_afterCycles (s := { s with sched := ds }) hlegal rfl hds
  rw [afterCycles_eq_scanSteps hphase (nonempty hworkC)] at hrunC
  rw [afterCycles_eq_scanSteps hphase (nonempty hworkD), hsame] at hrunD
  exact ⟨_, _, hrunC, hrunD, scanSteps_phase hphase hq (by omega), rfl, rfl, rfl⟩

/-! ### DECODE -/

theorem reports_of_withoutInputs {s t : State} {d : Decoded} (h : t.withoutInputs = s.withoutInputs) (hs : s.reports d) :
    t.reports d := by
  have hs' : s.withoutInputs.reports d := hs
  rw [← h] at hs'
  exact hs'

theorem withoutInputs_keeps {s t : State} (h : t.withoutInputs = s.withoutInputs) :
    t.phase = s.phase ∧ t.result = s.result ∧ t.windowFull = s.windowFull ∧ t.ibuf = s.ibuf ∧ t.inLen = s.inLen ∧
      t.obuf = s.obuf ∧ t.outLen = s.outLen ∧ t.wire = s.wire := by
  simp only [State.withoutInputs, State.mk.injEq] at h
  tauto

theorem scanSteps_keeps (work : Nat) (s : State) :
    (scanSteps work s).ibuf = s.ibuf ∧ (scanSteps work s).obuf = s.obuf ∧ (scanSteps work s).outLen = s.outLen ∧
      (scanSteps work s).wire = s.wire := by
  have h := scanSteps_withoutScan work s
  simp only [State.withoutScan, State.mk.injEq] at h
  tauto

/-- DECODE from its SCAN entry on: its completion reports `decode_all` of the scanned bytes (R150, R163, R170). -/
theorem decode_afterCycles {s : State} {cs : List CycleIn} (hlegal : s.cfg.legal = true) (hphase : s.phase = .scan)
    (hop : s.op ≠ .receive) (hq : s.q = 0#17) (hn : s.n = 0#16) (hlast : s.last = 0#17)
    (hlen : s.len.toNat ≤ s.cfg.ibufBytes) (hwork : max (s.len.toNat - 1) 1 ≤ (cs.map CycleIn.work).sum) :
    (s.afterCycles cs).phase = .idle ∧ (s.afterCycles cs).result = .ok ∧ (s.afterCycles cs).windowFull = false ∧
      (s.afterCycles cs).reports (decodeAll s.scanned) ∧ (s.afterCycles cs).ibuf = s.ibuf ∧
      (s.afterCycles cs).inLen = s.inLen ∧ (s.afterCycles cs).obuf = s.obuf ∧ (s.afterCycles cs).outLen = s.outLen ∧
      (s.afterCycles cs).wire = s.wire := by
  obtain ⟨hdone, hreports, -, hdecode, -⟩ :=
    scanPhaseComputesDecodeAll s (cs.map CycleIn.work).sum hlegal hphase hq hn hlast hlen hwork
  obtain ⟨hok, hnotFull, hinLen⟩ := hdecode hop
  obtain ⟨hibuf, hobuf, houtLen, hwire⟩ := scanSteps_keeps (cs.map CycleIn.work).sum s
  rw [afterCycles_of_scan cs (.inl hphase)]
  have hinputs := foldl_beginCycle_withoutInputs cs (scanSteps (cs.map CycleIn.work).sum s)
  obtain ⟨hphase', hresult, hfull, hibuf', hinLen', hobuf', houtLen', hwire'⟩ := withoutInputs_keeps hinputs
  exact ⟨hphase'.trans hdone, hresult.trans hok, hfull.trans hnotFull, reports_of_withoutInputs hinputs hreports,
    hibuf'.trans hibuf, hinLen'.trans hinLen, hobuf'.trans hobuf, houtLen'.trans houtLen, hwire'.trans hwire⟩

/-- Settles O43: the command enters SCAN over IBUF[0 .. IN_LEN), and the cycles after it make the scan's steps. -/
theorem decodeReportsDecodeAllOfIbuf : Obligations.DecodeReportsDecodeAllOfIbuf := by
  intro s g cs hinv hidle hcs hwork hsched
  obtain ⟨hlegal, -, ⟨hinLen, -⟩, -⟩ := hinv
  exact ⟨_, runsTo_command (g := g) (opcode := 3#4) hlegal hidle hsched hcs,
    decode_afterCycles (s := (s.beginCycle (commandCycle g 3#4)).startOpcode 3#4) hlegal rfl Op.noConfusion rfl rfl rfl
      hinLen hwork⟩

end Sys2Proof.Machine
end

section
/-!
PROOFS. The receiver (spec 42_receiver.md R190 to R204): what the phases ARM and DRAIN do in a cycle, that the window is what
has been taken of the transport's input, RECEIVE's completing cycle, and its runs over preloaded bytes and over silence.
-/

namespace Sys2Proof.Machine

/-! ### ARM and DRAIN, cycle by cycle -/

/-- Below its last value a counter counts (R37). -/
theorem sat17_of_lt {c : BitVec 17} (h : c.toNat < 131071) : sat17 c = c + 1#17 := by
  refine if_neg ?_
  rintro rfl
  exact absurd h (by decide)

theorem sat17_toNat {c : BitVec 17} (h : c.toNat < 131071) : (sat17 c).toNat = c.toNat + 1 := by
  rw [sat17_of_lt h, BitVec.toNat_add, BitVec.toNat_ofNat]
  omega

theorem armStep_of_byte {s : State} {b : Byte} {rest : List Byte} (tick : Bool) (h : s.rxFifo = b :: rest) :
    armStep tick s = { s.popInto 0 b rest with wlen := 1#16, idle := 0#17, phase := .drain } := by
  rw [armStep, h]

theorem armStep_of_deadline {s : State} (tick : Bool) (h : s.rxFifo = []) (hlate : s.latencyMs.toNat ≤ s.elapsed.toNat) :
    armStep tick s = s.enterScan 0#16 := by
  rw [armStep, h]
  exact if_pos hlate

theorem armStep_of_waiting {s : State} (tick : Bool) (h : s.rxFifo = []) (hwait : s.elapsed.toNat < s.latencyMs.toNat) :
    armStep tick s = if tick then { s with elapsed := sat17 s.elapsed } else s := by
  rw [armStep, h]
  exact if_neg (Nat.not_le.mpr hwait)

theorem drainStep_of_byte {s : State} {b : Byte} {rest : List Byte} (tick : Bool) (h : s.rxFifo = b :: rest)
    (hroom : s.wlen.toNat < s.cfg.ibufBytes) :
    drainStep tick s = { s.popInto s.wlen.toNat b rest with wlen := s.wlen + 1#16, idle := 0#17 } := by
  rw [drainStep, h]
  exact if_pos hroom

theorem drainStep_of_full {s : State} (tick : Bool) (h : s.rxFifo ≠ []) (hfull : s.cfg.ibufBytes ≤ s.wlen.toNat) :
    drainStep tick s = { s with full := true }.enterScan s.wlen := by
  obtain ⟨b, rest, hfifo⟩ := List.exists_cons_of_ne_nil h
  rw [drainStep, hfifo]
  exact if_neg (Nat.not_lt.mpr hfull)

theorem drainStep_of_silence {s : State} (tick : Bool) (h : s.rxFifo = []) (hlate : s.timeoutMs.toNat < s.idle.toNat) :
    drainStep tick s = s.enterScan s.wlen := by
  rw [drainStep, h]
  exact if_pos hlate

theorem drainStep_of_waiting {s : State} (tick : Bool) (h : s.rxFifo = []) (hwait : s.idle.toNat ≤ s.timeoutMs.toNat) :
    drainStep tick s = if tick then { s with idle := sat17 s.idle } else s := by
  rw [drainStep, h]
  exact if_neg (Nat.not_lt.mpr hwait)

/-- Settles O44: the deadline is at most 65535, so the counter does not saturate before it. -/
theorem armPollsThenTestsTheDeadlineThenTicks : Obligations.ArmPollsThenTestsTheDeadlineThenTicks := by
  intro c s hphase
  have hL := s.latencyMs.isLt
  rw [controllerStep_arm c s hphase]
  refine ⟨fun b rest h => armStep_of_byte c.tick h, fun h => armStep_of_deadline c.tick h, fun h hwait htick => ?tick,
    fun h hwait htick => ?wait⟩
  case tick => rw [armStep_of_waiting c.tick h hwait, if_pos htick, sat17_of_lt (by omega)]
  case wait => rw [armStep_of_waiting c.tick h hwait, htick, if_neg Bool.false_ne_true]

/-- Settles O45: the silence bound is at most 65535, so the counter does not saturate before it. -/
theorem drainPollsThenTestsSilenceThenTicks : Obligations.DrainPollsThenTestsSilenceThenTicks := by
  intro c s hphase
  have hT := s.timeoutMs.isLt
  rw [controllerStep_drain c s hphase]
  refine ⟨fun b rest h => drainStep_of_byte c.tick h, drainStep_of_full c.tick, drainStep_of_silence c.tick,
    fun h hwait htick => ?tick, fun h hwait htick => ?wait⟩
  case tick => rw [drainStep_of_waiting c.tick h hwait, if_pos htick, sat17_of_lt (by omega)]
  case wait => rw [drainStep_of_waiting c.tick h hwait, htick, if_neg Bool.false_ne_true]

/-- Settles O49: the stop rule holds, so the cycle's first step finishes and the others do nothing. -/
theorem receiveCompletionReportsTheWindow : Obligations.ReceiveCompletionReportsTheWindow := by
  intro c s hphase hop hwork hshort
  rw [controllerStep_scan c s hphase, scanSteps_of_short hphase (Nat.one_le_iff_ne_zero.mpr hwork) hshort,
    finishScan_of_receive hop]
  rfl

/-! ### The window -/

/-- A byte written at the window's end joins the window, and nothing at or above the new end changes (R195). -/
theorem window_of_pop {s t : State} {b : Byte} (hibuf : t.ibuf = s.ibuf.write s.wlen.toNat b) (hepoch : t.epoch = s.epoch)
    (hwlen : t.wlen.toNat = s.wlen.toNat + 1) :
    t.window = s.window ++ [b] ∧ ∀ j, t.wlen.toNat ≤ j → t.ibufAt j = s.ibufAt j := by
  have hat (j : Nat) : t.ibufAt j = if j = s.wlen.toNat then b else s.ibufAt j := by
    rw [← ibufAt_write, State.ibufAt, State.ibufAt, hibuf, hepoch]
  have hbelow : (List.range s.wlen.toNat).map t.ibufAt = s.window := by
    refine List.map_congr_left fun j hj => ?_
    rw [hat, if_neg (List.mem_range.mp hj).ne]
  constructor
  · rw [State.window, State.ibufPrefix, hwlen, List.range_succ, List.map_append, hbelow, List.map_singleton, hat, if_pos rfl]
  · intro j hj
    rw [hat, if_neg (by omega)]

theorem wlen_add_one_toNat {s : State} (hmax : s.cfg.ibufBytes ≤ 65535) (hroom : s.wlen.toNat < s.cfg.ibufBytes) :
    (s.wlen + 1#16).toNat = s.wlen.toNat + 1 := by
  rw [BitVec.toNat_add, BitVec.toNat_ofNat]
  omega

theorem armStep_window {s : State} (tick : Bool) (hwlen : s.wlen = 0#16) :
    (armStep tick s).window ++ (armStep tick s).rxFifo = s.window ++ s.rxFifo ∧
      ∀ j, (armStep tick s).wlen.toNat ≤ j → (armStep tick s).ibufAt j = s.ibufAt j := by
  obtain ⟨b, rest, hfifo, h⟩ | ⟨-, -, h⟩ | ⟨-, -, -, h⟩ | ⟨-, -, -, h⟩ := armStep_cases tick s <;> rw [h]
  · obtain ⟨hwindow, habove⟩ := window_of_pop (s := s)
      (t := { s.popInto 0 b rest with wlen := 1#16, idle := 0#17, phase := .drain }) (by rw [hwlen]; rfl) rfl
      (by rw [hwlen]; rfl)
    exact ⟨by rw [hwindow, hfifo, List.append_assoc]; rfl, habove⟩
  all_goals exact ⟨rfl, fun _ _ => rfl⟩

theorem drainStep_window {s : State} (tick : Bool) (hmax : s.cfg.ibufBytes ≤ 65535) :
    (drainStep tick s).window ++ (drainStep tick s).rxFifo = s.window ++ s.rxFifo ∧
      ∀ j, (drainStep tick s).wlen.toNat ≤ j → (drainStep tick s).ibufAt j = s.ibufAt j := by
  obtain ⟨b, rest, hfifo, hroom, h⟩ | ⟨-, -, h⟩ | ⟨-, -, h⟩ | ⟨-, -, -, h⟩ | ⟨-, -, -, h⟩ := drainStep_cases tick s <;>
    rw [h]
  · obtain ⟨hwindow, habove⟩ := window_of_pop (s := s)
      (t := { s.popInto s.wlen.toNat b rest with wlen := s.wlen + 1#16, idle := 0#17 }) rfl rfl
      (wlen_add_one_toNat hmax hroom)
    exact ⟨by rw [hwindow, hfifo, List.append_assoc]; rfl, habove⟩
  all_goals exact ⟨rfl, fun _ _ => rfl⟩

/-- Settles O46: a byte leaves the transport only into the window's end. -/
theorem windowIsAPrefixOfTheReceivedStream : Obligations.WindowIsAPrefixOfTheReceivedStream := by
  intro c s hinv hphase
  obtain ⟨hlegal, -, -, hok⟩ := hinv
  obtain harm | hdrain := hphase
  · obtain ⟨-, -, hwlen, -⟩ := (phaseOk_arm_iff harm).mp hok
    rw [controllerStep_arm c s harm]
    exact armStep_window c.tick hwlen
  · obtain ⟨-, hmax, -⟩ := (legal_iff _).mp hlegal
    rw [controllerStep_drain c s hdrain]
    exact drainStep_window c.tick hmax

/-! ### Cycles in which only the time passes -/

/-- A cycle with a tick and nothing else. -/
def tickCycle : CycleIn := { CycleIn.quiet with tick := true }

theorem tickCycle_unattended : tickCycle.unattended := ⟨rfl, rfl⟩

theorem rxFifo_beginCycle_tickCycle (s : State) : (s.beginCycle tickCycle).rxFifo = s.rxFifo := List.append_nil _

/-- The state with everything removed that the passing of time changes in ARM and DRAIN. -/
def State.withoutTimers (s : State) : State :=
  { s with elapsed := 0#17, idle := 0#17, sched := [], pins := Pins.quiet, rdata := none }

theorem withoutTimers_keeps {s t : State} (h : t.withoutTimers = s.withoutTimers) :
    t.phase = s.phase ∧ t.rxFifo = s.rxFifo ∧ t.latencyMs = s.latencyMs ∧ t.timeoutMs = s.timeoutMs := by
  simp only [State.withoutTimers, State.mk.injEq] at h
  tauto

theorem withoutTimers_keeps_contents {s t : State} (h : t.withoutTimers = s.withoutTimers) :
    t.op = s.op ∧ t.wlen = s.wlen ∧ t.full = s.full ∧ t.ibuf = s.ibuf ∧ t.obuf = s.obuf ∧ t.msg = s.msg ∧
      t.wire = s.wire ∧ t.epoch = s.epoch := by
  simp only [State.withoutTimers, State.mk.injEq] at h
  tauto

theorem beginCycle_tickCycle_withoutTimers (s : State) :
    (s.beginCycle tickCycle).withoutTimers = s.withoutTimers := by
  simp only [State.withoutTimers, State.beginCycle, tickCycle, CycleIn.quiet, List.append_nil]

/-- Cycles that each count one tick, as long as a timer is below its bound. -/
theorem afterCycles_ticks {s : State} {timer : State → Nat} {bound m : Nat}
    (htick : ∀ u : State, u.withoutTimers = s.withoutTimers → timer u < bound →
      timer (u.afterCycles [tickCycle]) = timer u + 1 ∧ (u.afterCycles [tickCycle]).withoutTimers = u.withoutTimers)
    (hm : timer s + m ≤ bound) :
    timer (s.afterCycles (List.replicate m tickCycle)) = timer s + m ∧
      (s.afterCycles (List.replicate m tickCycle)).withoutTimers = s.withoutTimers := by
  induction m with
  | zero => exact ⟨rfl, rfl⟩
  | succ m ih =>
    obtain ⟨hcount, hkept⟩ := ih (by omega)
    obtain ⟨hcount', hkept'⟩ := htick _ hkept (by omega)
    rw [List.replicate_succ', afterCycles_append]
    exact ⟨by rw [hcount', hcount, Nat.add_assoc], hkept'.trans hkept⟩

/-- ARM counts a tick of silence before the deadline (R193). -/
theorem arm_tick {s : State} (hphase : s.phase = .arm) (hfifo : s.rxFifo = [])
    (hwait : s.elapsed.toNat < s.latencyMs.toNat) :
    (s.afterCycles [tickCycle]).elapsed.toNat = s.elapsed.toNat + 1 ∧
      (s.afterCycles [tickCycle]).withoutTimers = s.withoutTimers := by
  have hL := s.latencyMs.isLt
  have hfifo' := (rxFifo_beginCycle_tickCycle s).trans hfifo
  have hstep : s.afterCycles [tickCycle] = { s.beginCycle tickCycle with elapsed := sat17 s.elapsed } := by
    rw [afterCycles_cons, afterCycles_nil, controllerStep_arm _ (s.beginCycle _) hphase,
      armStep_of_waiting _ hfifo' hwait]
    rfl
  rw [hstep]
  exact ⟨sat17_toNat (by omega), beginCycle_tickCycle_withoutTimers s⟩

/-- DRAIN counts a tick of silence up to the first beyond T (R194). -/
theorem drain_tick {s : State} (hphase : s.phase = .drain) (hfifo : s.rxFifo = [])
    (hwait : s.idle.toNat ≤ s.timeoutMs.toNat) :
    (s.afterCycles [tickCycle]).idle.toNat = s.idle.toNat + 1 ∧
      (s.afterCycles [tickCycle]).withoutTimers = s.withoutTimers := by
  have hT := s.timeoutMs.isLt
  have hfifo' := (rxFifo_beginCycle_tickCycle s).trans hfifo
  have hstep : s.afterCycles [tickCycle] = { s.beginCycle tickCycle with idle := sat17 s.idle } := by
    rw [afterCycles_cons, afterCycles_nil, controllerStep_drain _ (s.beginCycle _) hphase,
      drainStep_of_waiting _ hfifo' hwait]
    rfl
  rw [hstep]
  exact ⟨sat17_toNat (by omega), beginCycle_tickCycle_withoutTimers s⟩

theorem arm_afterCycles_ticks {s : State} {m : Nat} (hphase : s.phase = .arm) (hfifo : s.rxFifo = [])
    (hm : s.elapsed.toNat + m ≤ s.latencyMs.toNat) :
    (s.afterCycles (List.replicate m tickCycle)).elapsed.toNat = s.elapsed.toNat + m ∧
      (s.afterCycles (List.replicate m tickCycle)).withoutTimers = s.withoutTimers := by
  refine afterCycles_ticks (timer := fun u => u.elapsed.toNat) (fun u hu hwait => ?_) hm
  obtain ⟨hphase', hfifo', hL, -⟩ := withoutTimers_keeps hu
  exact arm_tick (hphase'.trans hphase) (hfifo'.trans hfifo) (hL ▸ hwait)

theorem drain_afterCycles_ticks {s : State} {m : Nat} (hphase : s.phase = .drain) (hfifo : s.rxFifo = [])
    (hm : s.idle.toNat + m ≤ s.timeoutMs.toNat + 1) :
    (s.afterCycles (List.replicate m tickCycle)).idle.toNat = s.idle.toNat + m ∧
      (s.afterCycles (List.replicate m tickCycle)).withoutTimers = s.withoutTimers := by
  refine afterCycles_ticks (timer := fun u => u.idle.toNat) (fun u hu hwait => ?_) hm
  obtain ⟨hphase', hfifo', -, hT⟩ := withoutTimers_keeps hu
  exact drain_tick (hphase'.trans hphase) (hfifo'.trans hfifo) (hT ▸ Nat.le_of_lt_succ hwait)

/-! ### RECEIVE of silence -/

/-- The entry of RECEIVE: ARM with its counters cleared (R192). -/
def State.receiveEntry (s : State) : State :=
  { s with phase := .arm, op := .receive, elapsed := 0#17, idle := 0#17, wlen := 0#16, full := false }

/-- What the command RECEIVE makes of an idle state in which the transport holds what it holds (R71, R192). -/
def State.afterReceive (s : State) (g : BitVec 28) : State := (s.beginCycle (commandCycle g 4#4)).receiveEntry

theorem afterReceive_rxFifo (s : State) (g : BitVec 28) : (s.afterReceive g).rxFifo = s.rxFifo := List.append_nil _

/-- RECEIVE, where it is built, and `m` cycles in which only the time passes. -/
theorem runsTo_receive {s : State} {g : BitVec 28} {m : Nat} (hlegal : s.cfg.legal = true)
    (hrx : s.cfg.rxPresent = true) (hidle : s.phase = .idle)
    (hsched : s.sched = commandCycle g 4#4 :: List.replicate m tickCycle) :
    runsTo (1 + m) s ((s.afterReceive g).afterCycles (List.replicate m tickCycle)) := by
  have hticks : ∀ c ∈ List.replicate m tickCycle, c.unattended :=
    fun _ hc => List.eq_of_mem_replicate hc ▸ tickCycle_unattended
  have hentry : (s.beginCycle (commandCycle g 4#4)).startOpcode 4#4 = s.afterReceive g :=
    startReceive_of_present (s := s.beginCycle _) hrx
  have hrun := runsTo_command hlegal hidle hsched hticks
  rwa [hentry, List.length_replicate] at hrun

/-- In ARM past its deadline, two cycles of silence complete RECEIVE with no message (R193, R199). -/
theorem receive_completes_of_deadline {s : State} (hphase : s.phase = .arm) (hop : s.op = .receive)
    (hfifo : s.rxFifo = []) (hlate : s.latencyMs.toNat ≤ s.elapsed.toNat) :
    let t := s.afterCycles [tickCycle, tickCycle]
    t.phase = .idle ∧ t.result = .noResponse ∧ t.windowFull = s.full ∧ t.inLen = s.wlen ∧ t.msgCount = 0#16 ∧
      t.consumed = 0#16 ∧ t.ibuf = s.ibuf ∧ t.msg = s.msg ∧ t.wire = s.wire := by
  intro t
  have hfifo' := (rxFifo_beginCycle_tickCycle s).trans hfifo
  have hscan : t = scanSteps 1 (((s.beginCycle tickCycle).enterScan 0#16).beginCycle tickCycle) := by
    rw [show t = _ from afterCycles_cons .., controllerStep_arm _ (s.beginCycle _) hphase,
      armStep_of_deadline _ hfifo' hlate]
    exact controllerStep_scan _ (((s.beginCycle tickCycle).enterScan 0#16).beginCycle tickCycle) rfl
  have hshort : (((s.beginCycle tickCycle).enterScan 0#16).beginCycle tickCycle).len.toNat <
      (((s.beginCycle tickCycle).enterScan 0#16).beginCycle tickCycle).q.toNat + 3 := by
    simp
  rw [hscan, scanSteps_of_short rfl le_rfl hshort, finishScan_of_receive (by exact hop)]
  exact ⟨rfl, rfl, rfl, rfl, rfl, rfl, rfl, rfl, rfl⟩

/-- RECEIVE from its entry over silence: the deadline's ticks, the deadline's cycle, and SCAN's one cycle (R193, R199). -/
theorem silence_afterCycles {s : State} (hphase : s.phase = .arm) (hop : s.op = .receive) (helapsed : s.elapsed = 0#17)
    (hfifo : s.rxFifo = []) :
    let t := s.afterCycles (List.replicate (s.latencyMs.toNat + 2) tickCycle)
    t.phase = .idle ∧ t.result = .noResponse ∧ t.windowFull = s.full ∧ t.inLen = s.wlen ∧ t.msgCount = 0#16 ∧
      t.consumed = 0#16 ∧ t.ibuf = s.ibuf ∧ t.msg = s.msg ∧ t.wire = s.wire := by
  have hzero : s.elapsed.toNat = 0 := by rw [helapsed]; rfl
  obtain ⟨hcount, hkept⟩ := arm_afterCycles_ticks (m := s.latencyMs.toNat) hphase hfifo (by omega)
  obtain ⟨hphase', hfifo', hL, -⟩ := withoutTimers_keeps hkept
  obtain ⟨hop', hwlen, hfull, hibuf, -, hmsg, hwire, -⟩ := withoutTimers_keeps_contents hkept
  have hlate : (s.afterCycles (List.replicate s.latencyMs.toNat tickCycle)).latencyMs.toNat ≤
      (s.afterCycles (List.replicate s.latencyMs.toNat tickCycle)).elapsed.toNat := by
    rw [hL, hcount]
    exact Nat.le_add_left ..
  have hdone := receive_completes_of_deadline (hphase'.trans hphase) (hop'.trans hop) (hfifo'.trans hfifo) hlate
  rw [hwlen, hfull, hibuf, hmsg, hwire, ← afterCycles_append] at hdone
  rwa [← List.replicate_append_replicate]

theorem receiveOutcome_of_noResponse {s : State} (hresult : s.result = .noResponse) (hinLen : s.inLen = 0#16) :
    s.receiveOutcome = .nothing := by
  have hne : s.result ≠ .ok := by
    rw [hresult]
    exact Result.noConfusion
  rw [State.receiveOutcome, if_neg hne, if_pos hinLen]

/-- Settles O48: the command enters ARM with its counters cleared, and from there the run is that of silence. -/
theorem receiveOfSilenceReportsNoResponse : Obligations.ReceiveOfSilenceReportsNoResponse := by
  intro s g hlegal hrx hidle hfifo hsched
  obtain ⟨hphase, hresult, hfull, hinLen, hcount, hconsumed, hkept⟩ :=
    silence_afterCycles (s := s.afterReceive g) rfl rfl rfl ((afterReceive_rxFifo s g).trans hfifo)
  exact ⟨_, runsTo_receive hlegal hrx hidle hsched, hphase, hresult, hfull, hinLen, hcount, hconsumed,
    receiveOutcome_of_noResponse hresult hinLen, hkept⟩

/-! ### RECEIVE of preloaded bytes -/

/-- What RECEIVE keeps from its entry to the end of its window. -/
def State.keptByWindow (s : State) : Params × Op × Bool × List Byte × Memory Byte × BitVec 16 :=
  (s.cfg, s.op, s.full, s.wire, s.obuf, s.timeoutMs)

/-- `t` is in DRAIN with no silence counted, and has taken `bytes` of the transport's input of `s` into the window. -/
structure Took (s t : State) (bytes : List Byte) : Prop where
  phase : t.phase = .drain
  idle : t.idle = 0#17
  rxFifo : s.rxFifo = bytes ++ t.rxFifo
  window : t.window = s.window ++ bytes
  wlen : t.wlen.toNat = s.wlen.toNat + bytes.length
  kept : t.keptByWindow = s.keptByWindow

theorem Took.trans {s u t : State} {xs ys : List Byte} (h : Took s u xs) (h' : Took u t ys) : Took s t (xs ++ ys) where
  phase := h'.phase
  idle := h'.idle
  rxFifo := by rw [h.rxFifo, h'.rxFifo, List.append_assoc]
  window := by rw [h'.window, h.window, List.append_assoc]
  wlen := by rw [h'.wlen, h.wlen, List.length_append, Nat.add_assoc]
  kept := h'.kept.trans h.kept

theorem keptByWindow_cfg {s t : State} (h : t.keptByWindow = s.keptByWindow) : t.cfg = s.cfg := congrArg Prod.fst h

/-- ARM takes the first byte (R193, R195). -/
theorem took_of_arm {s : State} {b : Byte} {rest : List Byte} (hphase : s.phase = .arm) (hwlen : s.wlen = 0#16)
    (hfifo : s.rxFifo = b :: rest) : Took s (s.afterCycles [tickCycle]) [b] := by
  have hstep : s.afterCycles [tickCycle] =
      { (s.beginCycle tickCycle).popInto 0 b rest with wlen := 1#16, idle := 0#17, phase := .drain } := by
    rw [afterCycles_cons, afterCycles_nil, controllerStep_arm _ (s.beginCycle _) hphase,
      armStep_of_byte _ ((rxFifo_beginCycle_tickCycle s).trans hfifo)]
  have hcount : (s.afterCycles [tickCycle]).wlen.toNat = s.wlen.toNat + 1 := by
    rw [hstep, hwlen]
    rfl
  obtain ⟨hwindow, -⟩ := window_of_pop (s := s) (b := b) (by rw [hstep, hwlen]; rfl) (by rw [hstep]; rfl) hcount
  exact ⟨by rw [hstep], by rw [hstep], by rw [hstep, hfifo]; rfl, hwindow, hcount, by rw [hstep]; rfl⟩

/-- DRAIN takes a byte while the window has room (R194, R195). -/
theorem took_of_drain {s : State} {b : Byte} {rest : List Byte} (hphase : s.phase = .drain)
    (hmax : s.cfg.ibufBytes ≤ 65535) (hroom : s.wlen.toNat < s.cfg.ibufBytes) (hfifo : s.rxFifo = b :: rest) :
    Took s (s.afterCycles [tickCycle]) [b] := by
  have hstep : s.afterCycles [tickCycle] =
      { (s.beginCycle tickCycle).popInto s.wlen.toNat b rest with wlen := s.wlen + 1#16, idle := 0#17 } := by
    rw [afterCycles_cons, afterCycles_nil, controllerStep_drain _ (s.beginCycle _) hphase,
      drainStep_of_byte _ ((rxFifo_beginCycle_tickCycle s).trans hfifo) (by exact hroom)]
    rfl
  have hcount : (s.afterCycles [tickCycle]).wlen.toNat = s.wlen.toNat + 1 := by
    rw [hstep]
    exact wlen_add_one_toNat hmax hroom
  obtain ⟨hwindow, -⟩ := window_of_pop (s := s) (b := b) (by rw [hstep]; rfl) (by rw [hstep]; rfl) hcount
  exact ⟨by rw [hstep]; exact hphase, by rw [hstep], by rw [hstep, hfifo]; rfl, hwindow, hcount, by rw [hstep]; rfl⟩

/-- DRAIN takes a byte in every cycle, until the transport's input is used up (R194). -/
theorem took_all_of_drain {s : State} {bytes : List Byte} (hphase : s.phase = .drain) (hidle : s.idle = 0#17)
    (hmax : s.cfg.ibufBytes ≤ 65535) (hroom : s.wlen.toNat + bytes.length ≤ s.cfg.ibufBytes) (hfifo : s.rxFifo = bytes) :
    Took s (s.afterCycles (List.replicate bytes.length tickCycle)) bytes := by
  induction bytes generalizing s with
  | nil => exact ⟨hphase, hidle, rfl, (List.append_nil _).symm, rfl, rfl⟩
  | cons b rest ih =>
    rw [List.length_cons] at hroom
    have hone := took_of_drain hphase hmax (by omega) hfifo
    have hcfg := keptByWindow_cfg hone.kept
    have hwlen : (s.afterCycles [tickCycle]).wlen.toNat = s.wlen.toNat + 1 := hone.wlen
    have hrest : (s.afterCycles [tickCycle]).rxFifo = rest :=
      ((List.cons.inj (hfifo.symm.trans hone.rxFifo)).2).symm
    exact hone.trans (ih hone.phase hone.idle (hcfg ▸ hmax) (by rw [hwlen, hcfg]; omega) hrest)

theorem window_congr {s t : State} (hibuf : t.ibuf = s.ibuf) (hepoch : t.epoch = s.epoch) (hwlen : t.wlen = s.wlen) :
    t.window = s.window := by
  have hat : t.ibufAt = s.ibufAt := funext fun j => by rw [State.ibufAt, State.ibufAt, hibuf, hepoch]
  rw [State.window, State.window, State.ibufPrefix, State.ibufPrefix, hat, hwlen]

/-- DRAIN's cycle after the first tick beyond T enters SCAN over the window (R194, R198). -/
theorem drain_afterCycle_of_late {s : State} (hphase : s.phase = .drain) (hfifo : s.rxFifo = [])
    (hlate : s.timeoutMs.toNat < s.idle.toNat) :
    s.afterCycles [tickCycle] = (s.beginCycle tickCycle).enterScan s.wlen := by
  rw [afterCycles_cons, afterCycles_nil, controllerStep_drain _ (s.beginCycle _) hphase,
    drainStep_of_silence _ ((rxFifo_beginCycle_tickCycle s).trans hfifo) (by exact hlate)]
  rfl

/-- DRAIN, its input used up: T + 1 ticks of silence, and the cycle that ends the window (R194, R198). -/
theorem silence_ends_window {s : State} (hphase : s.phase = .drain) (hfifo : s.rxFifo = []) (hidle : s.idle = 0#17) :
    let t := s.afterCycles (List.replicate (s.timeoutMs.toNat + 2) tickCycle)
    t.phase = .scan ∧ t.op = s.op ∧ t.window = s.window ∧ t.wlen = s.wlen ∧ t.len = t.wlen ∧ t.full = s.full ∧
      t.rxFifo = [] ∧ t.wire = s.wire ∧ t.obuf = s.obuf := by
  have hzero : s.idle.toNat = 0 := by rw [hidle]; rfl
  obtain ⟨hcount, hkept⟩ := drain_afterCycles_ticks (m := s.timeoutMs.toNat + 1) hphase hfifo (by omega)
  obtain ⟨hphase', hfifo', -, hT⟩ := withoutTimers_keeps hkept
  obtain ⟨hop, hwlen, hfull, hibuf, hobuf, -, hwire, hepoch⟩ := withoutTimers_keeps_contents hkept
  have hdone := drain_afterCycle_of_late (hphase'.trans hphase) (hfifo'.trans hfifo) (by rw [hT, hcount]; omega)
  rw [← afterCycles_append] at hdone
  rw [show s.timeoutMs.toNat + 2 = s.timeoutMs.toNat + 1 + 1 from rfl, ← List.replicate_append_replicate]
  intro t
  rw [show t = _ from hdone]
  exact ⟨rfl, hop, window_congr hibuf hepoch hwlen, hwlen, rfl, hfull,
    (rxFifo_beginCycle_tickCycle _).trans (hfifo'.trans hfifo), hwire, hobuf⟩

/-- From RECEIVE's entry, all of the transport's input is taken into the window, a byte a cycle (R193, R194). -/
theorem took_all_of_arm {s : State} (hphase : s.phase = .arm) (hwlen : s.wlen = 0#16) (hmax : s.cfg.ibufBytes ≤ 65535)
    (hne : s.rxFifo ≠ []) (hlen : s.rxFifo.length ≤ s.cfg.ibufBytes) :
    Took s (s.afterCycles (List.replicate s.rxFifo.length tickCycle)) s.rxFifo := by
  obtain ⟨b, rest, hfifo⟩ := List.exists_cons_of_ne_nil hne
  have hone := took_of_arm hphase hwlen hfifo
  have hcfg := keptByWindow_cfg hone.kept
  have hcount : (s.afterCycles [tickCycle]).wlen.toNat = 1 := by rw [hone.wlen, hwlen]; rfl
  have hrest : (s.afterCycles [tickCycle]).rxFifo = rest := (List.cons.inj (hfifo.symm.trans hone.rxFifo)).2.symm
  rw [hfifo, List.length_cons] at hlen
  rw [hfifo]
  exact hone.trans (took_all_of_drain hone.phase hone.idle (hcfg ▸ hmax) (by rw [hcount, hcfg]; omega) hrest)

/-- Settles O47: the transport's bytes are taken one a cycle, and the silence after them ends the window. -/
theorem receiveTakesExactlyThePreloadedBytes : Obligations.ReceiveTakesExactlyThePreloadedBytes := by
  intro s g hlegal hrx hidle hne hlen hsched
  obtain ⟨-, hmax, -⟩ := (legal_iff _).mp hlegal
  have hentry : (s.afterReceive g).rxFifo = s.rxFifo := afterReceive_rxFifo s g
  have htook := took_all_of_arm (s := s.afterReceive g) rfl rfl hmax (by rwa [hentry]) (by rwa [hentry])
  rw [hentry] at htook
  obtain ⟨-, hop, hfull, hwire, hobuf, hT⟩ : _ ∧ _ ∧ _ ∧ _ ∧ _ ∧ _ := by
    simpa only [State.keptByWindow, Prod.mk.injEq] using htook.kept
  have hempty := List.self_eq_append_right.mp (hentry.symm.trans htook.rxFifo)
  have hcount : (s.afterReceive g).wlen.toNat + s.rxFifo.length = s.rxFifo.length := Nat.zero_add _
  have hend := silence_ends_window htook.phase hempty htook.idle
  rw [show _ = s.timeoutMs from hT] at hend
  obtain ⟨hphase, hop', hwindow, hwlen, hscan, hfull', hfifo, hwire', hobuf'⟩ := hend
  have hrun := runsTo_receive hlegal hrx hidle hsched
  rw [Nat.add_assoc s.rxFifo.length, ← List.replicate_append_replicate, afterCycles_append] at hrun
  exact ⟨_, by rwa [Nat.add_assoc s.rxFifo.length], hphase, hop'.trans hop, hwindow.trans htook.window, (congrArg _ hwlen).trans (htook.wlen.trans hcount),
    hscan, hfull'.trans hfull, hfifo, hwire'.trans hwire, hobuf'.trans hobuf⟩

end Sys2Proof.Machine
end
